-- ==== Sys2Proof/Word.lean ====
section
/-!
DEFINITION. The data units of the block: the byte (R11), the 16-bit offset, and the socket index.
-/

namespace Sys2Proof

/-- The unit of data: 8 bits, unsigned (R11). -/
abbrev Byte := BitVec 8

/-- A 16-bit unsigned value: an SFP offset, the UART divisor (R12). -/
abbrev Word16 := BitVec 16

/-- A block select, 5 bits (R41, R63). -/
abbrev Bsb := BitVec 5

/-- A socket index 0..7 (`N_SOCK` = 8, R6): the 3-bit field BSB[4:2] can name no other (R63). -/
abbrev SockIx := Fin 8

end Sys2Proof
end

