-- ==== Sys2Proof/Config.lean ====
section
/-!
DEFINITION. What an implementation fixes (the parameters of R6) and the free values (`draw()` of R12).
-/

namespace Sys2Proof

/-- The implementation parameters of R6 that the spec leaves OPEN. They are plain data that no step
changes; a statement about every state is a statement about every value of them. -/
structure Config where
  /-- `MAX_CAP`, the compile-time upper bound of a ring capacity, 1..255. -/
  maxCap : Nat
  /-- `CAP_URX`, in 1..MAX_CAP. -/
  capUrx : Nat
  /-- `CAP_UTX`, in 1..MAX_CAP. -/
  capUtx : Nat
  /-- `CAP_SRX`, in 1..MAX_CAP. -/
  capSrx : Nat
  /-- `CAP_STX`, in 1..MAX_CAP. -/
  capStx : Nat
  /-- `F_CLK` in Hz, at least 153600. -/
  fClk : Nat
  /-- `N_SS`, the number of slave-select lines, 1..8. -/
  nSs : Nat
  /-- `SFP_SS`, the line the SFP is wired to, 0..N_SS-1. -/
  sfpSs : Nat
  /-- `SOCK0_KB`, the size the driver programs for socket 0. -/
  sock0Kb : Nat
  /-- `SOCKN_KB`, the size the driver programs for each of sockets 1..7. -/
  sockNKb : Nat
  /-- `T_SOFT_SETTLE` in microseconds; no rule of the model depends on it (R192). -/
  tSoftSettleUs : Nat
  /-- `BASE`, the host address of register offset 0x00. -/
  base : Nat
  deriving DecidableEq, Repr

/-- The capacities are legal: each in 1..MAX_CAP (R80), and MAX_CAP in the range 1..255 of R6. That a MAX_CAP above
255 makes them illegal even where each is within it, and so is refused RB_CAPACITY as they are, is the model's own
(DESIGN CHOICE, log 20): R80 and R173 give that refusal for a ring capacity alone, and the spec gives no outcome for a
MAX_CAP out of its range. -/
def Config.capsLegal (c : Config) : Bool :=
  decide (1 ≤ c.maxCap ∧ c.maxCap ≤ 255) &&
  [c.capUrx, c.capUtx, c.capSrx, c.capStx].all (fun n => decide (1 ≤ n ∧ n ≤ c.maxCap))

/-- The parameter constraints of R6. The upper bound on F_CLK is what makes the reset baud code's
divisor fit DIV_W = 16 bits (R22, R81; DEDUCED, log 5). -/
def Config.wf (c : Config) : Bool :=
  c.capsLegal &&
  decide (153600 ≤ c.fClk ∧ c.fClk < 153600 * 65537) &&
  decide (1 ≤ c.nSs ∧ c.nSs ≤ 8) &&
  decide (c.sfpSs < c.nSs) &&
  decide (c.sockNKb < c.sock0Kb) &&
  decide (c.sock0Kb ∈ [0, 1, 2, 4, 8, 16] ∧ c.sockNKb ∈ [0, 1, 2, 4, 8, 16])

/-- The parameters `State.reset` is written with: those of spec/95_test_vectors.md, and for the four
that file does not give (`SOCK0_KB`, `SOCKN_KB`, `T_SOFT_SETTLE`, and `BASE`) values of the model's
own. DESIGN CHOICE, unsafe: the spec leaves them OPEN (log 5). -/
def Config.vectors : Config where
  maxCap := 255
  capUrx := 4
  capUtx := 4
  capSrx := 32
  capStx := 32
  fClk := 16000000
  nSs := 2
  sfpSs := 0
  sock0Kb := 8
  sockNKb := 1
  tSoftSettleUs := 0
  base := 0

/-- `T_HARD_ASSERT`, 1 ms, in microseconds (R6, R167). No rule of the model depends on it. -/
def Config.tHardAssertUs : Nat := 1000

/-- `T_HARD_RELEASE`, 10 ms, in microseconds (R6, R167). No rule of the model depends on it. -/
def Config.tHardReleaseUs : Nat := 10000

/-- The host address of register offset `o`: `BASE + o` (R39). -/
def Config.hostAddr (c : Config) (o : Byte) : Nat := c.base + o.toNat

/-- `draw()` of a byte (R12): the value of the k-th draw, under no law (log 6). -/
opaque Config.freeByte : Nat → Byte

/-- `draw()` of a two-way choice (R159): the k-th draw, under no law (log 17). -/
opaque Config.freeChoice : Nat → Bool

end Sys2Proof
end

