-- ==== Sys2Proof/Syntax.lean ====
section
/-!
DEFINITION. The requests the block accepts: one constructor per row of spec/opcode_table.json (R57).
-/

namespace Sys2Proof

/-- The four ring instances (R2, R17). -/
inductive RingId where
  /-- UART receive ring. -/
  | urx
  /-- UART transmit ring. -/
  | utx
  /-- SPI receive ring. -/
  | srx
  /-- SPI transmit ring. -/
  | stx
  deriving DecidableEq, Repr

/-- The operation mode OM of an SFP frame (R64). -/
inductive OpMode where
  /-- variable data length: until the chip-select line is released. -/
  | vdm
  /-- exactly 1 data byte. -/
  | fdm1
  /-- exactly 2 data bytes. -/
  | fdm2
  /-- exactly 4 data bytes. -/
  | fdm4
  deriving DecidableEq, Repr

/-- The instructions. A `FRAME.R` carries the number `len` of its data bytes (the MOSI bytes of a read are
dummies, R135); a `FRAME.W` carries the data bytes themselves. A ring operation carries the ring on whose
port it is issued, a socket command the socket to whose Sn_CR it is written: neither is in the request's bits. -/
inductive Instr where
  /-- `RD UART_DATA` (R85). -/
  | rdUartData
  /-- `WR UART_DATA, imm8` (R84). -/
  | wrUartData (v : Byte)
  /-- `RD UART_STATUS` (R86). -/
  | rdUartStatus
  /-- `WR UART_STATUS, imm8` (R87). -/
  | wrUartStatus (v : Byte)
  /-- `RD UART_CTRL` (R88). -/
  | rdUartCtrl
  /-- `WR UART_CTRL, imm8` (R89). -/
  | wrUartCtrl (v : Byte)
  /-- `RD UART_FRAME` (R90). -/
  | rdUartFrame
  /-- `WR UART_FRAME, imm8` (R91). -/
  | wrUartFrame (v : Byte)
  /-- `RD UART_BAUD` (R92). -/
  | rdUartBaud
  /-- `WR UART_BAUD, imm8` (R93). -/
  | wrUartBaud (v : Byte)
  /-- `RD UART_DIVL` (R94). -/
  | rdUartDivl
  /-- `WR UART_DIVL, imm8` (R96). -/
  | wrUartDivl (v : Byte)
  /-- `RD UART_DIVH` (R95). -/
  | rdUartDivh
  /-- `WR UART_DIVH, imm8` (R96). -/
  | wrUartDivh (v : Byte)
  /-- `RD UART_RXCNT` (R97). -/
  | rdUartRxcnt
  /-- `WR UART_RXCNT, imm8` (R96). -/
  | wrUartRxcnt (v : Byte)
  /-- `RD UART_TXCNT` (R98). -/
  | rdUartTxcnt
  /-- `WR UART_TXCNT, imm8` (R96). -/
  | wrUartTxcnt (v : Byte)
  /-- `RD UART_ERR` (R99). -/
  | rdUartErr
  /-- `WR UART_ERR, imm8` (R100). -/
  | wrUartErr (v : Byte)
  /-- `RD UART_CMD` (R101). -/
  | rdUartCmd
  /-- `WR UART_CMD, imm8` (R102). -/
  | wrUartCmd (v : Byte)
  /-- `RD SPI_DATA` (R114). -/
  | rdSpiData
  /-- `WR SPI_DATA, imm8` (R112). -/
  | wrSpiData (v : Byte)
  /-- `RD SPI_STATUS` (R115). -/
  | rdSpiStatus
  /-- `WR SPI_STATUS, imm8` (R116). -/
  | wrSpiStatus (v : Byte)
  /-- `RD SPI_CTRL` (R117). -/
  | rdSpiCtrl
  /-- `WR SPI_CTRL, imm8` (R118). -/
  | wrSpiCtrl (v : Byte)
  /-- `RD SPI_CLKSEL` (R119). -/
  | rdSpiClksel
  /-- `WR SPI_CLKSEL, imm8` (R120). -/
  | wrSpiClksel (v : Byte)
  /-- `RD SPI_SS` (R121). -/
  | rdSpiSs
  /-- `WR SPI_SS, imm8` (R122). -/
  | wrSpiSs (v : Byte)
  /-- `RD SPI_RXCNT` (R123). -/
  | rdSpiRxcnt
  /-- `WR SPI_RXCNT, imm8` (R125). -/
  | wrSpiRxcnt (v : Byte)
  /-- `RD SPI_TXCNT` (R124). -/
  | rdSpiTxcnt
  /-- `WR SPI_TXCNT, imm8` (R125). -/
  | wrSpiTxcnt (v : Byte)
  /-- `RD SPI_CMD` (R126). -/
  | rdSpiCmd
  /-- `WR SPI_CMD, imm8` (R127). -/
  | wrSpiCmd (v : Byte)
  /-- `RD <reserved offset>` (R48). -/
  | rdReserved (off : Byte)
  /-- `WR <reserved offset>, imm8` (R48). -/
  | wrReserved (off v : Byte)
  /-- `PIN SFP_HARD_RESET` (R167). -/
  | pinSfpHardReset
  /-- `PIN DELAY_SETTLE` (R169). -/
  | pinDelaySettle
  /-- `PIN <reserved>` (R59). -/
  | pinReserved (w : BitVec 17)
  /-- `RB.PUSH q, imm8` (R74). -/
  | rbPush (q : RingId) (v : Byte)
  /-- `RB.POP q` (R75). -/
  | rbPop (q : RingId)
  /-- `RB.COUNT q` (R76). -/
  | rbCount (q : RingId)
  /-- `RB.CLEAR q` (R77). -/
  | rbClear (q : RingId)
  /-- `FRAME.R 0, off, om, n (common read)` (R139). -/
  | frameCommonRead (off : Word16) (om : OpMode) (len : Nat)
  /-- `FRAME.W 0, off, om, data (common write)` (R140). -/
  | frameCommonWrite (off : Word16) (om : OpMode) (data : List Byte)
  /-- `FRAME <reserved BSB 4>` (R134). -/
  | frameReservedBsb4 (off : Word16) (rwb : Bool) (om : OpMode) (data : List Byte)
  /-- `FRAME <reserved BSB 8>` (R134). -/
  | frameReservedBsb8 (off : Word16) (rwb : Bool) (om : OpMode) (data : List Byte)
  /-- `FRAME <reserved BSB 12>` (R134). -/
  | frameReservedBsb12 (off : Word16) (rwb : Bool) (om : OpMode) (data : List Byte)
  /-- `FRAME <reserved BSB 16>` (R134). -/
  | frameReservedBsb16 (off : Word16) (rwb : Bool) (om : OpMode) (data : List Byte)
  /-- `FRAME <reserved BSB 20>` (R134). -/
  | frameReservedBsb20 (off : Word16) (rwb : Bool) (om : OpMode) (data : List Byte)
  /-- `FRAME <reserved BSB 24>` (R134). -/
  | frameReservedBsb24 (off : Word16) (rwb : Bool) (om : OpMode) (data : List Byte)
  /-- `FRAME <reserved BSB 28>` (R134). -/
  | frameReservedBsb28 (off : Word16) (rwb : Bool) (om : OpMode) (data : List Byte)
  /-- `FRAME.R 4n+1, off, om, n (socket-n register read)` (R141). -/
  | frameSockRegRead (n : SockIx) (off : Word16) (om : OpMode) (len : Nat)
  /-- `FRAME.W 4n+1, off, om, data (socket-n register write)` (R142). -/
  | frameSockRegWrite (n : SockIx) (off : Word16) (om : OpMode) (data : List Byte)
  /-- `FRAME.R 4n+2, off, om, n (socket-n TX buffer read)` (R143). -/
  | frameTxBufRead (n : SockIx) (off : Word16) (om : OpMode) (len : Nat)
  /-- `FRAME.W 4n+2, off, om, data (socket-n TX buffer write)` (R144). -/
  | frameTxBufWrite (n : SockIx) (off : Word16) (om : OpMode) (data : List Byte)
  /-- `FRAME.R 4n+3, off, om, n (socket-n RX buffer read)` (R145). -/
  | frameRxBufRead (n : SockIx) (off : Word16) (om : OpMode) (len : Nat)
  /-- `FRAME.W 4n+3, off, om, data (socket-n RX buffer write, refused)` (R146). -/
  | frameRxBufWrite (n : SockIx) (off : Word16) (om : OpMode) (data : List Byte)
  /-- `Sn_CR <- 0x00 (no command)` (R150). -/
  | cmdNone (n : SockIx)
  /-- `OPEN` (R156). -/
  | cmdOpen (n : SockIx)
  /-- `LISTEN` (R157). -/
  | cmdListen (n : SockIx)
  /-- `CONNECT` (R158). -/
  | cmdConnect (n : SockIx)
  /-- `DISCON` (R159). -/
  | cmdDiscon (n : SockIx)
  /-- `CLOSE` (R160). -/
  | cmdClose (n : SockIx)
  /-- `SEND` (R161). -/
  | cmdSend (n : SockIx)
  /-- `SEND_MAC` (R162). -/
  | cmdSendMac (n : SockIx)
  /-- `SEND_KEEP` (R163). -/
  | cmdSendKeep (n : SockIx)
  /-- `RECV` (R164). -/
  | cmdRecv (n : SockIx)
  /-- `<reserved socket command>` (R165). -/
  | cmdReserved (n : SockIx) (c : Byte)
  deriving DecidableEq, Repr

end Sys2Proof
end

