-- ==== Sys2Proof/WellFormed.lean ====
section
/-!
DEFINITION. Which instruction terms stand for a request of the block.
-/

namespace Sys2Proof

/-- `len(OM)`: the exact number of data bytes of an FDM frame; VDM has no limit (R64). -/
def OpMode.len : OpMode → Option Nat
  | .vdm => none
  | .fdm1 => some 1
  | .fdm2 => some 2
  | .fdm4 => some 4

/-- A frame of mode `om` may carry `n` data bytes: any number in VDM, at most `len(OM)` in FDM (R64; fewer
where the line is released early, R65, R137). The byte after `len(OM)` starts another frame. -/
def OpMode.admits (om : OpMode) (n : Nat) : Bool :=
  match om.len with
  | none => true
  | some k => decide (n ≤ k)

/-- A host offset of the register map of R60 that is not reserved. -/
def usedOffset (off : Byte) : Bool :=
  decide (off.toNat ≤ 0x0A) || (decide (0x10 ≤ off.toNat) && decide (off.toNat ≤ 0x17))

/-- The nine command codes of R66. -/
def commandCodes : List Byte := [0x01, 0x02, 0x04, 0x08, 0x10, 0x20, 0x21, 0x22, 0x40]

/-- The checks, one line per constructor: a reserved offset is one R60 reserves (R48), a reserved PIN
request is neither of the two operations (R59), an FDM frame carries no more than its length (R137), and a
reserved command is neither 0x00 nor one of the nine (R165). Every other field ranges over its whole type. -/
def Instr.wf : Instr → Bool
  | .rdUartData | .wrUartData _ | .rdUartStatus | .wrUartStatus _ => true
  | .rdUartCtrl | .wrUartCtrl _ | .rdUartFrame | .wrUartFrame _ => true
  | .rdUartBaud | .wrUartBaud _ | .rdUartDivl | .wrUartDivl _ => true
  | .rdUartDivh | .wrUartDivh _ | .rdUartRxcnt | .wrUartRxcnt _ => true
  | .rdUartTxcnt | .wrUartTxcnt _ | .rdUartErr | .wrUartErr _ => true
  | .rdUartCmd | .wrUartCmd _ => true
  | .rdSpiData | .wrSpiData _ | .rdSpiStatus | .wrSpiStatus _ => true
  | .rdSpiCtrl | .wrSpiCtrl _ | .rdSpiClksel | .wrSpiClksel _ => true
  | .rdSpiSs | .wrSpiSs _ | .rdSpiRxcnt | .wrSpiRxcnt _ => true
  | .rdSpiTxcnt | .wrSpiTxcnt _ | .rdSpiCmd | .wrSpiCmd _ => true
  | .rdReserved off => !usedOffset off
  | .wrReserved off _ => !usedOffset off
  | .pinSfpHardReset | .pinDelaySettle => true
  | .pinReserved w => decide (w ≠ 0 ∧ w ≠ 1)
  | .rbPush _ _ | .rbPop _ | .rbCount _ | .rbClear _ => true
  | .frameCommonRead _ om len => om.admits len
  | .frameCommonWrite _ om data => om.admits data.length
  | .frameReservedBsb4 _ _ _ _ | .frameReservedBsb8 _ _ _ _ => true
  | .frameReservedBsb12 _ _ _ _ | .frameReservedBsb16 _ _ _ _ => true
  | .frameReservedBsb20 _ _ _ _ | .frameReservedBsb24 _ _ _ _ => true
  | .frameReservedBsb28 _ _ _ _ => true
  | .frameSockRegRead _ _ om len => om.admits len
  | .frameSockRegWrite _ _ om data => om.admits data.length
  | .frameTxBufRead _ _ om len => om.admits len
  | .frameTxBufWrite _ _ om data => om.admits data.length
  | .frameRxBufRead _ _ om len => om.admits len
  | .frameRxBufWrite _ _ om data => om.admits data.length
  | .cmdNone _ | .cmdOpen _ | .cmdListen _ | .cmdConnect _ | .cmdDiscon _ => true
  | .cmdClose _ | .cmdSend _ | .cmdSendMac _ | .cmdSendKeep _ | .cmdRecv _ => true
  | .cmdReserved _ c => decide (c ≠ 0) && !commandCodes.contains c

end Sys2Proof
end

