-- ==== Sys2Proof/Decode.lean ====
section
/-!
DEFINITION. Decoding of the four request formats (R57 to R68), total on any bits, and the encoder after it.
-/

namespace Sys2Proof

/-- A request as it arrives. The ring of an RBOP and the socket of an SNCMD are where it arrives, not bits of it
(R61, R57); a frame is the bytes sent on line SFP_SS under one assertion (R62). -/
inductive Request where
  /-- an 18-bit HREQ of HOST (R58). -/
  | hreq (w : BitVec 18)
  /-- a 10-bit RBOP at a port of ring `q` (R61). -/
  | rbop (q : RingId) (w : BitVec 10)
  /-- the bytes of a frame (R62). -/
  | frame (bytes : List Byte)
  /-- a byte written to `S[n].CR` (R66). -/
  | sncmd (n : SockIx) (c : Byte)
  deriving DecidableEq, Repr

/-- Why the bits are no single instruction. -/
inductive Reject where
  /-- fewer than the three header bytes: "a header cut short has no effect" (R131). -/
  | headerCutShort
  /-- more data bytes than the FDM length: the byte after it starts another frame (R137). -/
  | chainedFrames
  deriving DecidableEq, Repr

/-! ### HREQ (R58 to R60) -/

/-- A read of offset `off` (R60); the first matching row wins, so every other offset is reserved. -/
def decodeRead (off : Byte) : Instr :=
  match off.toNat with
  | 0x00 => .rdUartData
  | 0x01 => .rdUartStatus
  | 0x02 => .rdUartCtrl
  | 0x03 => .rdUartFrame
  | 0x04 => .rdUartBaud
  | 0x05 => .rdUartDivl
  | 0x06 => .rdUartDivh
  | 0x07 => .rdUartRxcnt
  | 0x08 => .rdUartTxcnt
  | 0x09 => .rdUartErr
  | 0x0A => .rdUartCmd
  | 0x10 => .rdSpiData
  | 0x11 => .rdSpiStatus
  | 0x12 => .rdSpiCtrl
  | 0x13 => .rdSpiClksel
  | 0x14 => .rdSpiSs
  | 0x15 => .rdSpiRxcnt
  | 0x16 => .rdSpiTxcnt
  | 0x17 => .rdSpiCmd
  | _ => .rdReserved off

/-- A write of `v` to offset `off` (R60). -/
def decodeWrite (off v : Byte) : Instr :=
  match off.toNat with
  | 0x00 => .wrUartData v
  | 0x01 => .wrUartStatus v
  | 0x02 => .wrUartCtrl v
  | 0x03 => .wrUartFrame v
  | 0x04 => .wrUartBaud v
  | 0x05 => .wrUartDivl v
  | 0x06 => .wrUartDivh v
  | 0x07 => .wrUartRxcnt v
  | 0x08 => .wrUartTxcnt v
  | 0x09 => .wrUartErr v
  | 0x0A => .wrUartCmd v
  | 0x10 => .wrSpiData v
  | 0x11 => .wrSpiStatus v
  | 0x12 => .wrSpiCtrl v
  | 0x13 => .wrSpiClksel v
  | 0x14 => .wrSpiSs v
  | 0x15 => .wrSpiRxcnt v
  | 0x16 => .wrSpiTxcnt v
  | 0x17 => .wrSpiCmd v
  | _ => .wrReserved off v

/-- KIND = 1: bits 16:2 must be 0 and bits 1:0 name the operation; anything else is reserved (R59). -/
def decodePin (w : BitVec 17) : Instr :=
  match w.toNat with
  | 0 => .pinSfpHardReset
  | 1 => .pinDelaySettle
  | _ => .pinReserved w

/-- An HREQ: KIND[17], W[16], OFF[15:8], DATA[7:0]; DATA is ignored on a read (R58). -/
def decodeHreq (w : BitVec 18) : Instr :=
  if w.getLsbD 17 then decodePin (w.extractLsb' 0 17)
  else if w.getLsbD 16 then decodeWrite (w.extractLsb' 8 8) (w.extractLsb' 0 8)
  else decodeRead (w.extractLsb' 8 8)

/-! ### RBOP (R61) -/

/-- An RBOP: OP[9:8], DATA[7:0]; DATA is ignored but for PUSH (R61). -/
def decodeRbop (q : RingId) (w : BitVec 10) : Instr :=
  match (w.extractLsb' 8 2).toNat with
  | 0 => .rbPush q (w.extractLsb' 0 8)
  | 1 => .rbPop q
  | 2 => .rbCount q
  | _ => .rbClear q

/-! ### SFPHDR (R62 to R65) -/

/-- OM, control byte bits 1:0 (R64). -/
def decodeOm (ctl : Byte) : OpMode :=
  match (ctl.extractLsb' 0 2).toNat with
  | 0 => .vdm
  | 1 => .fdm1
  | 2 => .fdm2
  | _ => .fdm4

/-- BSB, control byte bits 7:3 (R63). -/
def ctlBsb (ctl : Byte) : Bsb := ctl.extractLsb' 3 5

/-- RWB, control byte bit 2: true is a write (R63). -/
def ctlWrite (ctl : Byte) : Bool := ctl.getLsbD 2

/-- The block kind, BSB[1:0]: 1 registers, 2 TX buffer, 3 RX buffer, 0 common or reserved (R63). -/
def bsbKind (s : Bsb) : BitVec 2 := s.extractLsb' 0 2

/-- The socket index, BSB[4:2] (R63, R67). -/
def bsbSock (s : Bsb) : SockIx := (s.extractLsb' 2 3).toFin

/-- `reserved_bsb(s)`: `s[1:0] = 0b00` and `s[4:2] ≠ 0` (R134). -/
def reservedBsb (s : Bsb) : Bool := decide (bsbKind s = 0) && decide (bsbSock s ≠ 0)

/-- A frame with a reserved block select: one row per value 4n (R134). -/
def decodeReserved (n : SockIx) (off : Word16) (rwb : Bool) (om : OpMode) (data : List Byte) : Instr :=
  match n.val with
  | 1 => .frameReservedBsb4 off rwb om data
  | 2 => .frameReservedBsb8 off rwb om data
  | 3 => .frameReservedBsb12 off rwb om data
  | 4 => .frameReservedBsb16 off rwb om data
  | 5 => .frameReservedBsb20 off rwb om data
  | 6 => .frameReservedBsb24 off rwb om data
  | _ => .frameReservedBsb28 off rwb om data

/-- A frame with a block select that is not reserved (R138 to R146). -/
def decodeBlock (s : Bsb) (off : Word16) (rwb : Bool) (om : OpMode) (data : List Byte) : Instr :=
  match (bsbKind s).toNat, rwb with
  | 0, false => .frameCommonRead off om data.length
  | 0, true => .frameCommonWrite off om data
  | 1, false => .frameSockRegRead (bsbSock s) off om data.length
  | 1, true => .frameSockRegWrite (bsbSock s) off om data
  | 2, false => .frameTxBufRead (bsbSock s) off om data.length
  | 2, true => .frameTxBufWrite (bsbSock s) off om data
  | _, false => .frameRxBufRead (bsbSock s) off om data.length
  | _, true => .frameRxBufWrite (bsbSock s) off om data

/-- The header fields and the data: a reserved block select is judged first (R133), then the FDM length. -/
def decodeFields (off : Word16) (ctl : Byte) (data : List Byte) : Except Reject Instr :=
  if reservedBsb (ctlBsb ctl) then
    .ok (decodeReserved (bsbSock (ctlBsb ctl)) off (ctlWrite ctl) (decodeOm ctl) data)
  else if (decodeOm ctl).admits data.length then
    .ok (decodeBlock (ctlBsb ctl) off (ctlWrite ctl) (decodeOm ctl) data)
  else .error .chainedFrames

/-- A frame: ADDR[15:8], ADDR[7:0], the control byte, then the data phase (R62). -/
def decodeFrame : List Byte → Except Reject Instr
  | hi :: lo :: ctl :: data => decodeFields (hi ++ lo) ctl data
  | _ => .error .headerCutShort

/-! ### SNCMD (R66) -/

/-- A byte written to `S[n].CR` (R66). -/
def decodeSncmd (n : SockIx) (c : Byte) : Instr :=
  match c.toNat with
  | 0x00 => .cmdNone n
  | 0x01 => .cmdOpen n
  | 0x02 => .cmdListen n
  | 0x04 => .cmdConnect n
  | 0x08 => .cmdDiscon n
  | 0x10 => .cmdClose n
  | 0x20 => .cmdSend n
  | 0x21 => .cmdSendMac n
  | 0x22 => .cmdSendKeep n
  | 0x40 => .cmdRecv n
  | _ => .cmdReserved n c

/-- The decoder. It rejects, by name, only byte sequences that are not one whole frame. -/
def decode : Request → Except Reject Instr
  | .hreq w => .ok (decodeHreq w)
  | .rbop q w => .ok (decodeRbop q w)
  | .frame bytes => decodeFrame bytes
  | .sncmd n c => .ok (decodeSncmd n c)

/-! ### The encoder -/

/-- An HREQ word from its fields (R58). -/
def hreqWord (kind w : Bool) (off data : Byte) : BitVec 18 :=
  BitVec.ofBool kind ++ BitVec.ofBool w ++ off ++ data

/-- A pin operation: KIND = 1 and the 17 bits below it (R59). -/
def pinWord (w : BitVec 17) : BitVec 18 := BitVec.ofBool true ++ w

/-- An RBOP word (R61). -/
def rbopWord (op : BitVec 2) (data : Byte) : BitVec 10 := op ++ data

/-- The OM bits (R64). -/
def encodeOm : OpMode → BitVec 2
  | .vdm => 0
  | .fdm1 => 1
  | .fdm2 => 2
  | .fdm4 => 3

/-- The block select of block kind `k` of socket `n` (R63). -/
def bsbOf (n : SockIx) (k : BitVec 2) : Bsb := (BitVec.ofFin n : BitVec 3) ++ k

/-- The control byte: BSB[7:3], RWB[2], OM[1:0] (R63). -/
def ctlByte (s : Bsb) (rwb : Bool) (om : OpMode) : Byte := s ++ BitVec.ofBool rwb ++ encodeOm om

/-- The bytes of a frame (R62, R69). -/
def frameBytes (s : Bsb) (rwb : Bool) (off : Word16) (om : OpMode) (data : List Byte) : List Byte :=
  off.extractLsb' 8 8 :: off.extractLsb' 0 8 :: ctlByte s rwb om :: data

/-- The data bytes of a read frame: `len` dummy bytes 0x00 (R69). -/
def dummies (len : Nat) : List Byte := List.replicate len 0

/-- The request of an instruction, from the same tables (R58 to R66). -/
def encode : Instr → Request
  | .rdUartData => .hreq (hreqWord false false 0x00 0)
  | .wrUartData v => .hreq (hreqWord false true 0x00 v)
  | .rdUartStatus => .hreq (hreqWord false false 0x01 0)
  | .wrUartStatus v => .hreq (hreqWord false true 0x01 v)
  | .rdUartCtrl => .hreq (hreqWord false false 0x02 0)
  | .wrUartCtrl v => .hreq (hreqWord false true 0x02 v)
  | .rdUartFrame => .hreq (hreqWord false false 0x03 0)
  | .wrUartFrame v => .hreq (hreqWord false true 0x03 v)
  | .rdUartBaud => .hreq (hreqWord false false 0x04 0)
  | .wrUartBaud v => .hreq (hreqWord false true 0x04 v)
  | .rdUartDivl => .hreq (hreqWord false false 0x05 0)
  | .wrUartDivl v => .hreq (hreqWord false true 0x05 v)
  | .rdUartDivh => .hreq (hreqWord false false 0x06 0)
  | .wrUartDivh v => .hreq (hreqWord false true 0x06 v)
  | .rdUartRxcnt => .hreq (hreqWord false false 0x07 0)
  | .wrUartRxcnt v => .hreq (hreqWord false true 0x07 v)
  | .rdUartTxcnt => .hreq (hreqWord false false 0x08 0)
  | .wrUartTxcnt v => .hreq (hreqWord false true 0x08 v)
  | .rdUartErr => .hreq (hreqWord false false 0x09 0)
  | .wrUartErr v => .hreq (hreqWord false true 0x09 v)
  | .rdUartCmd => .hreq (hreqWord false false 0x0A 0)
  | .wrUartCmd v => .hreq (hreqWord false true 0x0A v)
  | .rdSpiData => .hreq (hreqWord false false 0x10 0)
  | .wrSpiData v => .hreq (hreqWord false true 0x10 v)
  | .rdSpiStatus => .hreq (hreqWord false false 0x11 0)
  | .wrSpiStatus v => .hreq (hreqWord false true 0x11 v)
  | .rdSpiCtrl => .hreq (hreqWord false false 0x12 0)
  | .wrSpiCtrl v => .hreq (hreqWord false true 0x12 v)
  | .rdSpiClksel => .hreq (hreqWord false false 0x13 0)
  | .wrSpiClksel v => .hreq (hreqWord false true 0x13 v)
  | .rdSpiSs => .hreq (hreqWord false false 0x14 0)
  | .wrSpiSs v => .hreq (hreqWord false true 0x14 v)
  | .rdSpiRxcnt => .hreq (hreqWord false false 0x15 0)
  | .wrSpiRxcnt v => .hreq (hreqWord false true 0x15 v)
  | .rdSpiTxcnt => .hreq (hreqWord false false 0x16 0)
  | .wrSpiTxcnt v => .hreq (hreqWord false true 0x16 v)
  | .rdSpiCmd => .hreq (hreqWord false false 0x17 0)
  | .wrSpiCmd v => .hreq (hreqWord false true 0x17 v)
  | .rdReserved off => .hreq (hreqWord false false off 0)
  | .wrReserved off v => .hreq (hreqWord false true off v)
  | .pinSfpHardReset => .hreq (pinWord 0)
  | .pinDelaySettle => .hreq (pinWord 1)
  | .pinReserved w => .hreq (pinWord w)
  | .rbPush q v => .rbop q (rbopWord 0 v)
  | .rbPop q => .rbop q (rbopWord 1 0)
  | .rbCount q => .rbop q (rbopWord 2 0)
  | .rbClear q => .rbop q (rbopWord 3 0)
  | .frameCommonRead off om len => .frame (frameBytes 0 false off om (dummies len))
  | .frameCommonWrite off om data => .frame (frameBytes 0 true off om data)
  | .frameReservedBsb4 off rwb om data => .frame (frameBytes 4 rwb off om data)
  | .frameReservedBsb8 off rwb om data => .frame (frameBytes 8 rwb off om data)
  | .frameReservedBsb12 off rwb om data => .frame (frameBytes 12 rwb off om data)
  | .frameReservedBsb16 off rwb om data => .frame (frameBytes 16 rwb off om data)
  | .frameReservedBsb20 off rwb om data => .frame (frameBytes 20 rwb off om data)
  | .frameReservedBsb24 off rwb om data => .frame (frameBytes 24 rwb off om data)
  | .frameReservedBsb28 off rwb om data => .frame (frameBytes 28 rwb off om data)
  | .frameSockRegRead n off om len => .frame (frameBytes (bsbOf n 1) false off om (dummies len))
  | .frameSockRegWrite n off om data => .frame (frameBytes (bsbOf n 1) true off om data)
  | .frameTxBufRead n off om len => .frame (frameBytes (bsbOf n 2) false off om (dummies len))
  | .frameTxBufWrite n off om data => .frame (frameBytes (bsbOf n 2) true off om data)
  | .frameRxBufRead n off om len => .frame (frameBytes (bsbOf n 3) false off om (dummies len))
  | .frameRxBufWrite n off om data => .frame (frameBytes (bsbOf n 3) true off om data)
  | .cmdNone n => .sncmd n 0x00
  | .cmdOpen n => .sncmd n 0x01
  | .cmdListen n => .sncmd n 0x02
  | .cmdConnect n => .sncmd n 0x04
  | .cmdDiscon n => .sncmd n 0x08
  | .cmdClose n => .sncmd n 0x10
  | .cmdSend n => .sncmd n 0x20
  | .cmdSendMac n => .sncmd n 0x21
  | .cmdSendKeep n => .sncmd n 0x22
  | .cmdRecv n => .sncmd n 0x40
  | .cmdReserved n c => .sncmd n c

/-! ### The host's numbering of a table row

spec/opcode_table.json gives a row's bits but not its format as bits: the four formats arrive at four
different places (R57). This chooses the place from the number of bits (DESIGN CHOICE, log 4). -/

/-- The data phase the row's bits do not hold: zero bytes, exactly `len(OM)` of them in FDM and one in VDM. -/
def tableData (ctl : Byte) : List Byte := List.replicate ((decodeOm ctl).len.getD 1) 0

/-- A header as a frame on the SFP's line, its address from bits 23:8 and its control byte from bits 7:0. -/
def tableFrame (w : Nat) : Request :=
  .frame (BitVec.ofNat 8 (w / 65536) :: BitVec.ofNat 8 (w / 256) :: BitVec.ofNat 8 w
    :: tableData (BitVec.ofNat 8 w))

/-- Up to 8 bits: a byte of R66's table is a socket command, and so is a byte whose two low bits are not 0;
any other byte is the control byte of a header with address 0. -/
def tableByte (w : Nat) : Request :=
  let c : Byte := BitVec.ofNat 8 w
  if c = 0 ∨ commandCodes.contains c ∨ decodeOm c ≠ .vdm then .sncmd 0 c else tableFrame (w % 256)

/-- Up to 16 bits: an RBOP, on ring URX. Up to 24: an HREQ where bits 23:18 are 0, but for a control byte other
than 0x00 with nothing above it, which is the header of a frame at address 0; any other 24-bit word is a header. -/
def tableRequest (nbits w : Nat) : Request :=
  if nbits ≤ 8 then tableByte w
  else if nbits ≤ 16 then .rbop .urx (BitVec.ofNat 10 w)
  else if 262144 ≤ w ∨ (w < 256 ∧ w ≠ 0) then tableFrame w
  else .hreq (BitVec.ofNat 18 w)

/-- The instruction the decoder reads from an opcode-table row's word. -/
def decodeTableWord (nbits w : Nat) : Option Instr :=
  (decode (tableRequest nbits w)).toOption

end Sys2Proof
end

