-- ==== Sys2Proof/Machine/Types.lean ====
section
/-!
DEFINITION. The types of the pieces of state (spec/10_state.md), of the moves of the agents and of the
observed events.
-/

namespace Sys2Proof.Machine

/-! ### Rings (R17) -/

/-- One ring instance. -/
structure Ring where
  /-- `q.CAP`, fixed for the life of the block. -/
  cap : Nat
  /-- `q.BUF[0..CAP-1]`. -/
  buf : List Byte
  /-- `q.HEAD`, the next slot a push writes. -/
  head : Nat
  /-- `q.TAIL`, the next slot a pop reads. -/
  tail : Nat
  /-- `q.COUNT`, used entries. -/
  count : Nat
  deriving DecidableEq, Repr

/-! ### UART (R19 to R26) -/

/-- Parity (R20). The reserved code 0b11 is never stored (R91). -/
inductive Parity where
  /-- 0b00. -/
  | absent
  /-- 0b01. -/
  | even
  /-- 0b10. -/
  | odd
  deriving DecidableEq, Repr

/-- `UART.CTRL` (R19); bit 7 is RAZ/WI and so has no field. -/
structure UartCtrl where
  rxen : Bool
  txen : Bool
  rxie : Bool
  txie : Bool
  u2x : Bool
  txmode : Bool
  loop : Bool
  deriving DecidableEq, Repr

/-- `UART.FRAME` (R20), and the snapshot of it in the transmit shifter (R26). -/
structure FrameFmt where
  /-- CHSZ: 5 + CHSZ data bits. -/
  chsz : BitVec 2
  /-- SBS: true is two stop bits. -/
  sbs : Bool
  /-- PAR. -/
  par : Parity
  deriving DecidableEq, Repr

/-- The stored flags of `UART.STATUS` (R23); RXNE and TXBUSY are derived. -/
structure UartFlags where
  txdone : Bool
  txc : Bool
  txovf : Bool
  rxuf : Bool
  deriving DecidableEq, Repr

/-- `UART.ERR` (R24). -/
structure UartErr where
  fe : Bool
  pe : Bool
  cfgerr : Bool
  deriving DecidableEq, Repr

/-- `UART.TXSH` (R26). -/
inductive TxShifter where
  | idle
  | busy (b : Byte) (fmt : FrameFmt)
  deriving DecidableEq, Repr

/-- The UART's registers. -/
structure Uart where
  ctrl : UartCtrl
  frame : FrameFmt
  /-- `UART.BAUD.CODE`, 0..8 (R21); a reserved code is never stored (R93). -/
  baud : Fin 9
  /-- `UART.DIV` (R22). -/
  div : Word16
  flags : UartFlags
  err : UartErr
  txsh : TxShifter
  deriving DecidableEq, Repr

/-! ### SPI master (R27 to R32) -/

/-- `SPI.CTRL` (R27); bit 7 is RAZ/WI and so has no field. -/
structure SpiCtrl where
  spe : Bool
  mstr : Bool
  dord : Bool
  cpol : Bool
  cpha : Bool
  buf : Bool
  spie : Bool
  deriving DecidableEq, Repr

/-- The stored flags of `SPI.STATUS` (R30); RXNE and BUSY are derived. -/
structure SpiFlags where
  tc : Bool
  wcol : Bool
  txovf : Bool
  rxuf : Bool
  cfgerr : Bool
  deriving DecidableEq, Repr

/-- `SPI.SH` (R32). -/
inductive SpiShifter where
  | idle
  | busy (b : Byte)
  deriving DecidableEq, Repr

/-- `SPI.DRAIN` (R32). -/
inductive Drain where
  | idle
  | active
  deriving DecidableEq, Repr

/-- The SPI master's registers. -/
structure Spi where
  ctrl : SpiCtrl
  /-- `SPI.CLKSEL.CODE`, 0..6 (R28); code 7 is never stored (R120). -/
  clksel : Fin 7
  /-- `SPI.SS.SSIDX` (R29). -/
  ssidx : BitVec 3
  /-- `SPI.SS.HOLD` (R29). -/
  hold : Bool
  flags : SpiFlags
  sh : SpiShifter
  drain : Drain
  /-- `SPI.AUTO`: a transfer or drain asserts the selected line. -/
  auto : Bool
  deriving DecidableEq, Repr

/-! ### SFP (R34 to R36) -/

/-- `SFP.PHASE` (R34). -/
inductive Phase where
  | idle
  | addrHi
  | addrLo
  | ctrl
  | data
  deriving DecidableEq, Repr

/-- Socket status (R154). No other value is ever held. -/
inductive SockStatus where
  | closed
  | init
  | listen
  | synsent
  | synrecv
  | established
  | finWait
  | closing
  | timeWait
  | closeWait
  | lastAck
  | udp
  | macraw
  deriving DecidableEq, Repr

/-- A socket buffer: the cells written since the last size change or SFP reset, as (index, byte) pairs with
indices strictly rising. An unlisted cell is the spec's ⊥, unwritten (R36, log 11). -/
abbrev Memory := List Host.Cell

/-- Per-socket state (R36). -/
structure Socket where
  mr : Byte
  /-- `CRPEND`: the command written and not yet taken; 0x00 means none. -/
  crpend : Byte
  sr : SockStatus
  /-- `PORT[0]`, the high byte. -/
  port0 : Byte
  /-- `PORT[1]`, the low byte. -/
  port1 : Byte
  /-- `RXSZ` in KiB. -/
  rxsz : Byte
  /-- `TXSZ` in KiB. -/
  txsz : Byte
  txbuf : Memory
  rxbuf : Memory
  deriving DecidableEq, Repr

/-- The SFP's registers of R35 and R36: what an SFP reset resets and a soft reset resets too. -/
structure SfpRegs where
  mr : Byte
  gar : Vector Byte 4
  subr : Vector Byte 4
  shar : Vector Byte 6
  sipr : Vector Byte 4
  socks : Vector Socket 8
  deriving DecidableEq, Repr

/-- The SFP (R34 to R36). -/
structure Sfp where
  phase : Phase
  addr : Word16
  ctl : Byte
  /-- `SFP.N`: data bytes done in the current frame. -/
  n : Nat
  /-- `SFP.CSPREV`. -/
  csPrev : Bool
  resetting : Bool
  regs : SfpRegs
  deriving DecidableEq, Repr

/-! ### Events, responses, moves -/

/-- The line events of the observation trace (R10). -/
inductive LineEvent where
  /-- `UART_TX_FRAME(d, nb, p, stop bits)` (R105). -/
  | uartTxFrame (d : Byte) (nb : Nat) (p : Option Bool) (stops : Nat)
  /-- `SPI_XFER(i, b, miso, DORD, CPOL, CPHA, divider)` (R129). -/
  | spiXfer (i : Nat) (b miso : Byte) (dord cpol cpha : Bool) (divider : Nat)
  deriving DecidableEq, Repr

/-- What a request gives back. The `hostRead` ones, in order, are the values HOST reads (R10). -/
inductive Response where
  /-- the 8-bit response of a host read (R58). -/
  | hostRead (v : Byte)
  /-- ACCEPT of a PUSH (R61). -/
  | accept (ok : Bool)
  /-- VALID and RDATA of a POP (R61). -/
  | popped (valid : Bool) (rdata : Byte)
  /-- COUNT (R61). -/
  | count (n : Byte)
  /-- the MISO byte of each slot of a frame, header first (R139). -/
  | miso (bytes : List Byte)
  deriving DecidableEq, Repr

/-- A HOST request: an HREQ and the width in bits of the bus access that carries it (R45). A pin operation
(KIND = 1) is no bus access, and its width is not looked at (log 16). -/
structure HostAccess where
  width : Nat
  req : BitVec 18
  deriving DecidableEq, Repr

/-- A received character: data bits, parity bit (`none` where no bit stands there), first and second stop
bit (R106). -/
structure RxFrame where
  d : Byte
  p : Option Bool
  s1 : Bool
  s2 : Bool
  deriving DecidableEq, Repr

/-- The agents that make steps (R8). -/
inductive Agent where
  | host
  | utx
  | urx
  | spi
  | sfp
  | net
  | line
  deriving DecidableEq, Repr

/-- The ports of a ring (R71). -/
inductive Port where
  | producer
  | consumer
  | control
  deriving DecidableEq, Repr

/-- One step of one agent (R8). The bits an environment agent draws are part of its move (log 19). -/
inductive Move where
  /-- HOST issues the next request of its program (R51). -/
  | host
  /-- agent `a` issues an operation at port `p` of ring `q`, on its own (R61, R71, log 8). -/
  | ring (a : Agent) (p : Port) (q : RingId) (op : BitVec 10)
  /-- the bytes of one assertion of line SFP_SS, the SFP driven on its own (R62, log 9). -/
  | frame (bytes : List Byte)
  /-- UTX load step (R104). -/
  | utxStart
  /-- UTX completion step (R105). -/
  | utxFinish
  /-- LINE delivers a frame with a bit at every place (R106). -/
  | line (d : Byte) (p s1 s2 : Bool)
  /-- SPI drain sequencer step (R128). -/
  | spiDrain
  /-- SPI transfer completion step (R129). -/
  | spiComplete
  /-- SFP settle step (R168). -/
  | sfpSettle
  /-- NET takes the pending command of socket `n` (R155 item 1). -/
  | netTake (n : SockIx)
  /-- NET moves socket `n` to status `sr` of itself (R155 item 2). -/
  | netStatus (n : SockIx) (sr : SockStatus)
  /-- NET puts `v` into receive cell `i` of socket `n` (R155 item 2). -/
  | netRx (n : SockIx) (i : Nat) (v : Byte)
  /-- the block reset (R187). -/
  | blockReset
  deriving DecidableEq, Repr

end Sys2Proof.Machine
end

