-- ==== Sys2Proof/Machine/Operands.lean ====
section
/-!
DEFINITION. The value functions of the rules, over plain values: tables, divisor, parity, register layouts,
status codes, buffer cells.
-/

namespace Sys2Proof.Machine

/-! ### Bytes from fields -/

/-- `{b7, …, b0}` as a byte (R12). -/
def packBits (b7 b6 b5 b4 b3 b2 b1 b0 : Bool) : Byte :=
  BitVec.ofBool b7 ++ BitVec.ofBool b6 ++ BitVec.ofBool b5 ++ BitVec.ofBool b4 ++
    BitVec.ofBool b3 ++ BitVec.ofBool b2 ++ BitVec.ofBool b1 ++ BitVec.ofBool b0

/-- `zext_8` of a count (R76): every count fits because MAX_CAP ≤ 255. -/
def countByte (n : Nat) : Byte := BitVec.ofNat 8 n

/-! ### UART values -/

/-- `BAUDTAB` (R21); 76900 is the source's literal, kept as written (U9). -/
def baudTab (code : Fin 9) : Nat :=
  [2400, 4800, 9600, 14400, 19200, 38400, 57600, 76900, 115200].getD code.val 0

/-- The oversampling factor k of R81: 8 with U2X, else 16. -/
def oversampling (u2x : Bool) : Nat := if u2x then 8 else 16

/-- `divisor`: the quotient truncated, then less 1 (R81). -/
def divisor (fClk baud : Nat) (u2x : Bool) : Int :=
  ((fClk / (oversampling u2x * baud) : Nat) : Int) - 1

/-- `valid`: the divisor fits DIV_W = 16 bits and is not negative (R81). -/
def divisorValid (d : Int) : Bool := decide (0 ≤ d ∧ d ≤ 0xFFFF)

/-- The divisor as the 16 bits of `UART.DIV` (R22). -/
def divBits (d : Int) : Word16 := BitVec.ofInt 16 d

/-- The number of data bits, `nb = 5 + CHSZ` (R82). -/
def dataBits (fmt : FrameFmt) : Nat := 5 + fmt.chsz.toNat

/-- `zext_8(d[nb-1:0])` (R106, R105). -/
def lowBits (nb : Nat) (b : Byte) : Byte := b &&& BitVec.ofNat 8 (2 ^ nb - 1)

/-- The XOR of the bits of a byte (R83): bits above the nb data bits are already 0. -/
def xorBits (d : Byte) : Bool :=
  (((((((d.getLsbD 0 ^^ d.getLsbD 1) ^^ d.getLsbD 2) ^^ d.getLsbD 3) ^^ d.getLsbD 4) ^^ d.getLsbD 5) ^^
    d.getLsbD 6) ^^ d.getLsbD 7)

/-- `parity(d, PAR)`, and `none` (NONE) where PAR is none (R83, R105). -/
def parityBit (par : Parity) (d : Byte) : Option Bool :=
  match par with
  | .absent => none
  | .even => some (xorBits d)
  | .odd => some (!xorBits d)

/-- The PAR code (R20). -/
def parCode : Parity → BitVec 2
  | .absent => 0
  | .even => 1
  | .odd => 2

/-- PAR from its code; 0b11 is reserved (R20). -/
def parOfCode (c : BitVec 2) : Option Parity :=
  match c.toNat with
  | 0 => some .absent
  | 1 => some .even
  | 2 => some .odd
  | _ => none

/-- `FRAME[4:0]`: PAR, SBS, CHSZ (R20). -/
def fmtBits (f : FrameFmt) : BitVec 5 := parCode f.par ++ BitVec.ofBool f.sbs ++ f.chsz

/-- A format from `v[4:0]`; `none` where PAR is the reserved code (R91). -/
def fmtOfBits (v : BitVec 5) : Option FrameFmt :=
  (parOfCode (v.extractLsb' 3 2)).map fun p =>
    { chsz := v.extractLsb' 0 2, sbs := v.getLsbD 2, par := p }

/-- `UART_CTRL` as read (R88). -/
def uartCtrlByte (c : UartCtrl) : Byte :=
  packBits false c.loop c.txmode c.u2x c.txie c.rxie c.txen c.rxen

/-- The number of stop bits, `1 + SBS` (R105). -/
def stopBits (f : FrameFmt) : Nat := 1 + f.sbs.toNat

/-- The bits of one wire frame: start, data, parity, stop (R82, R192). -/
def wireBits (f : FrameFmt) : Nat := 1 + dataBits f + (if f.par = .absent then 0 else 1) + stopBits f

/-- One UART bit time in bus-clock cycles: `(DIV + 1) × k` (R192). For information; no step uses it. -/
def bitCycles (div : Word16) (u2x : Bool) : Nat := (div.toNat + 1) * oversampling u2x

/-! ### SPI values -/

/-- `SPI_DIV` (R28, R6). -/
def spiDiv (code : Fin 7) : Nat := [2, 4, 8, 16, 32, 64, 128].getD code.val 0

/-- One SPI byte in bus-clock cycles: `8 × SPI_DIV[CODE]` (R192, R110). For information; no step uses it. -/
def spiByteCycles (code : Fin 7) : Nat := 8 * spiDiv code

/-- `SPI_CTRL` as read (R117). -/
def spiCtrlByte (c : SpiCtrl) : Byte :=
  packBits false c.spie c.buf c.cpha c.cpol c.dord c.mstr c.spe

/-- The configuration bits `SPI.CTRL[5:1]`: BUF, CPHA, CPOL, DORD, MSTR (R118). -/
def spiConfigBits (c : SpiCtrl) : BitVec 5 :=
  BitVec.ofBool c.buf ++ BitVec.ofBool c.cpha ++ BitVec.ofBool c.cpol ++ BitVec.ofBool c.dord ++
    BitVec.ofBool c.mstr

/-- `SPI_SS` as read: HOLD, zeros, SSIDX (R121). -/
def spiSsByte (hold : Bool) (ssidx : BitVec 3) : Byte := BitVec.ofBool hold ++ 0#4 ++ ssidx

/-! ### SFP values -/

/-- The status code held in `S[n].SR` (R154). -/
def statusCode : SockStatus → Byte
  | .closed => 0x00
  | .init => 0x13
  | .listen => 0x14
  | .synsent => 0x15
  | .synrecv => 0x16
  | .established => 0x17
  | .finWait => 0x18
  | .closing => 0x1A
  | .timeWait => 0x1B
  | .closeWait => 0x1C
  | .lastAck => 0x1D
  | .udp => 0x22
  | .macraw => 0x42

/-- NET's spontaneous status events (R155 item 2). -/
def mayBecome : SockStatus → SockStatus → Bool
  | .listen, .synrecv => true
  | .listen, .established => true
  | .synrecv, .established => true
  | .synrecv, .closed => true
  | .synsent, .established => true
  | .synsent, .closed => true
  | .established, .closeWait => true
  | .established, .closed => true
  | .closeWait, .closed => true
  | .finWait, .closing => true
  | .finWait, .timeWait => true
  | .finWait, .closed => true
  | .closing, .timeWait => true
  | .closing, .closed => true
  | .timeWait, .closed => true
  | .lastAck, .closed => true
  | _, _ => false

/-- The statuses that carry data: ESTABLISHED, CLOSE_WAIT, UDP, MACRAW (R155, R161, R164). -/
def carriesData : SockStatus → Bool
  | .established | .closeWait | .udp | .macraw => true
  | _ => false

/-- The legal buffer sizes in KiB (R151). -/
def legalSize (v : Byte) : Bool := [0, 1, 2, 4, 8, 16].contains v.toNat

/-- The number of cells of a buffer of `sz` KiB (R36). -/
def cellsOf (sz : Byte) : Nat := sz.toNat * 1024

/-- The cell of offset `off` in a buffer of `sz` KiB: `off mod (sz × 1024)` (R136, R144, R152). -/
def cellIndex (off : Word16) (sz : Byte) : Nat := off.toNat % cellsOf sz

/-- The named common registers (R147). -/
inductive CommonReg where
  | mr
  | gar (i : Fin 4)
  | subr (i : Fin 4)
  | shar (i : Fin 6)
  | sipr (i : Fin 4)
  deriving DecidableEq, Repr

/-- The common register at an offset; `none` is an unnamed one (R147, R153). -/
def commonReg (off : Word16) : Option CommonReg :=
  let o := off.toNat
  if o = 0 then some .mr
  else if h : 1 ≤ o ∧ o ≤ 4 then some (.gar ⟨o - 1, by omega⟩)
  else if h : 5 ≤ o ∧ o ≤ 8 then some (.subr ⟨o - 5, by omega⟩)
  else if h : 9 ≤ o ∧ o ≤ 14 then some (.shar ⟨o - 9, by omega⟩)
  else if h : 15 ≤ o ∧ o ≤ 18 then some (.sipr ⟨o - 15, by omega⟩)
  else none

/-- The named socket registers (R148). -/
inductive SockReg where
  | mr
  | cr
  | sr
  | port0
  | port1
  | rxsz
  | txsz
  deriving DecidableEq, Repr

/-- The socket register at an offset; `none` is an unnamed one (R148, R153). -/
def sockReg (off : Word16) : Option SockReg :=
  match off.toNat with
  | 0x0000 => some .mr
  | 0x0001 => some .cr
  | 0x0003 => some .sr
  | 0x0004 => some .port0
  | 0x0005 => some .port1
  | 0x001E => some .rxsz
  | 0x001F => some .txsz
  | _ => none

/-! ### Buffer cells -/

/-- The canonical form: indices strictly rising. An unlisted cell has no value, so no entry can equal one. -/
def Memory.wf (m : Memory) : Bool := decide (m.Pairwise (fun a b => a.1 < b.1))

/-- The byte of cell `i`; `none` is ⊥ (R36). -/
def Memory.read : Memory → Nat → Option Byte
  | [], _ => none
  | (a, v) :: rest, i => if a = i then some v else Memory.read rest i

/-- Write cell `i`, keeping the indices rising. -/
def Memory.write : Memory → Nat → Byte → Memory
  | [], i, v => [(i, v)]
  | (a, w) :: rest, i, v =>
    if i < a then (i, v) :: (a, w) :: rest
    else if i = a then (i, v) :: rest
    else (a, w) :: Memory.write rest i v

end Sys2Proof.Machine
end

