-- ==== Sys2Proof/Machine/ResetValues.lean ====
section
/-!
DEFINITION. The block-reset values of the MCU side (R17 to R32, R187) and the SFP reset values (R34 to R36).
-/

namespace Sys2Proof.Machine

/-- An empty ring of capacity `cap`; its storage is unspecified, and written here as zeros (DESIGN CHOICE,
log 7: never observable, R78). -/
def ringFresh (cap : Nat) : Ring :=
  { cap := cap, buf := List.replicate cap 0, head := 0, tail := 0, count := 0 }

/-- HEAD = TAIL = COUNT = 0, storage as it was (R77, and R187 where it is unspecified). -/
def Ring.clear (r : Ring) : Ring := { r with head := 0, tail := 0, count := 0 }

/-- The UART after a block reset: CTRL 0x00, FRAME 0x03, BAUD 0x02, DIV = divisor(9600, 0), flags 0, TXSH
IDLE (R187). -/
def uartReset (c : Config) : Uart where
  ctrl := { rxen := false, txen := false, rxie := false, txie := false, u2x := false, txmode := false,
            loop := false }
  frame := { chsz := 3, sbs := false, par := .absent }
  baud := 2
  div := divBits (divisor c.fClk (baudTab 2) false)
  flags := { txdone := false, txc := false, txovf := false, rxuf := false }
  err := { fe := false, pe := false, cfgerr := false }
  txsh := .idle

/-- The SPI master after a block reset: CTRL, CLKSEL and SS 0x00, flags 0, SH and DRAIN IDLE, AUTO false
(R187). -/
def spiReset : Spi where
  ctrl := { spe := false, mstr := false, dord := false, cpol := false, cpha := false, buf := false,
            spie := false }
  clksel := 0
  ssidx := 0
  hold := false
  flags := { tc := false, wcol := false, txovf := false, rxuf := false, cfgerr := false }
  sh := .idle
  drain := .idle
  auto := false

/-- A socket after an SFP reset (R36). -/
def socketReset : Socket where
  mr := 0
  crpend := 0
  sr := .closed
  port0 := 0
  port1 := 0
  rxsz := 2
  txsz := 2
  txbuf := []
  rxbuf := []

/-- The registers of R35 and R36 after an SFP reset. -/
def sfpRegsReset : SfpRegs where
  mr := 0
  gar := Vector.replicate 4 0
  subr := Vector.replicate 4 0
  shar := Vector.replicate 6 0
  sipr := Vector.replicate 4 0
  socks := Vector.replicate 8 socketReset

/-- The SFP at the launch: in its reset state, settled, the select line released (R34, R38). -/
def sfpLaunch : Sfp where
  phase := .idle
  addr := 0
  ctl := 0
  n := 0
  csPrev := false
  resetting := false
  regs := sfpRegsReset

end Sys2Proof.Machine
end

