-- ==== Sys2Proof/Machine/State.lean ====
section
/-!
DEFINITION. The state of the block (spec/10_state.md), the fault and refusal codes (R172, R173), and the
state right after reset.
-/

namespace Sys2Proof.Machine

/-- The fault codes of R172, the elements of the fault record. A fault "means the spec gives no hardware
meaning to a use that the block's interfaces admit" (R13); it is recorded and the step goes on as its
pseudocode says (log 1). Unsafe: what the model does after a fault is not a claim about the chip, and a
statement about the hardware assumes an empty record. -/
inductive Fault where
  /-- A byte slot on SFP_SS while the SFP settles; raised by `sfpSlot` (R133). Unsafe, as above. -/
  | sfpFrameDuringReset
  /-- A byte slot with LSB-first order or SPI mode 1 or 2; raised by `sfpSlot` (R132). Unsafe, as above. -/
  | sfpLinkMode
  /-- A control byte with block select 4n, n ≥ 1; raised by `sfpSlot` (R133, R134). Unsafe, as above. -/
  | sfpReservedBsb
  /-- A non-zero write to Sn_CR while a command is pending; raised by `writeCr` (R150). Unsafe, as above. -/
  | sfpCmdOverrun
  /-- A buffer size outside 0, 1, 2, 4, 8, 16; raised by `writeSize` (R151). Unsafe, as above. -/
  | sfpIllegalBufsize
  /-- Buffer access or command while RX or TX sizes sum to more than 16; raised by `checkTotal` (R151).
  Unsafe, as above. -/
  | sfpBufsizeTotal
  deriving DecidableEq, Repr

/-- The refusal codes of R173, the elements of the refusal record. A refusal "means the spec gives no meaning
to a configuration or access at all" (R13); it is recorded and the step goes on as its pseudocode says (log
1). Unsafe in the same way as a fault. -/
inductive Refusal where
  /-- An instruction the model gives no meaning; raised by a refused arm of `exec`, of which there is none.
  Safe: the machine stops. -/
  | notModelled (mnemonic : String)
  /-- A host access not 8 bits wide; raised by `hostWidth` (R45). Unsafe, as above. -/
  | hostWidth
  /-- KIND = 1 with a reserved PINOP or a non-zero bit in 16:2; raised by `execPinReserved` (R59). Unsafe, as
  above. -/
  | hostPinop
  /-- A ring capacity of 0 or above MAX_CAP (R80), or a MAX_CAP above 255 (the model's own, DESIGN CHOICE, log
  20); stands in the record from the launch, a launch being no step (DEDUCED, log 20). Unsafe, as
  above. -/
  | rbCapacity
  /-- SPE = 1 with MSTR = 0; raised by `spiCtrlWrite` (R111). Unsafe, as above. -/
  | spiSlave
  /-- An SFP access to an unnamed register; raised by `memRead` and `memWrite` (R153). Unsafe, as above. -/
  | sfpUnmodelledReg
  /-- An SFP write into a receive buffer; raised by `memWrite` (R146). Unsafe, as above. -/
  | sfpRxbufWrite
  /-- An SFP access to a buffer of size 0; raised by `bufRead` and `txBufWrite` (R152, R144). Unsafe, as
  above. -/
  | sfpBufZero
  /-- A reserved command byte written to Sn_CR; raised by `refuseCommand` (R165). Unsafe, as above. -/
  | sfpCmdReserved
  /-- A command taken in a status where it has no effect; raised by the nine command meanings (R156 to R164).
  Unsafe, as above. -/
  | netCmdState
  deriving DecidableEq, Repr

/-- The state: every piece of spec/10_state.md, the model records of R37, the observation of R10, and the
inputs that are still to come (log 2). -/
structure State where
  /-- the parameters of R6; no step changes them. -/
  cfg : Config
  /-- ring URX (R17). -/
  urx : Ring
  /-- ring UTX (R17). -/
  utx : Ring
  /-- ring SRX (R17). -/
  srx : Ring
  /-- ring STX (R17). -/
  stx : Ring
  /-- the UART (R19 to R26). -/
  uart : Uart
  /-- the SPI master (R27 to R32). -/
  spi : Spi
  /-- the SFP (R34 to R36). -/
  sfp : Sfp
  /-- the fault record, a set without repeats (R37). -/
  faults : List Fault
  /-- the refusal record, a set without repeats (R37). -/
  refusals : List Refusal
  /-- the trace of line events, oldest first (R10). -/
  trace : List LineEvent
  /-- the responses given, oldest first (R10, R58, R61). -/
  responses : List Response
  /-- the model's own: how many `draw()` values have been taken (R12, log 6). -/
  draws : Nat
  /-- input: the requests HOST has still to issue, in program order (R51). -/
  hostq : List HostAccess
  /-- input: the moves that come next (R52). -/
  sched : List Move
  deriving DecidableEq, Repr

/-- The launch state of R38 for any parameters: every MCU-side field at its block-reset value, the SFP
settled in its reset state, nothing observed, nothing scheduled. A configuration with an illegal capacity is
refused (R80): the refusal stands in its record from the start. -/
def State.launch (c : Config) : State where
  cfg := c
  urx := ringFresh c.capUrx
  utx := ringFresh c.capUtx
  srx := ringFresh c.capSrx
  stx := ringFresh c.capStx
  uart := uartReset c
  spi := spiReset
  sfp := sfpLaunch
  faults := []
  refusals := if c.capsLegal then [] else [.rbCapacity]
  trace := []
  responses := []
  draws := 0
  hostq := []
  sched := []

/-- The machine right after reset: the launch with the parameters of spec/95_test_vectors.md (log 5). -/
def State.reset : State := State.launch Config.vectors

end Sys2Proof.Machine
end

