-- ==== Sys2Proof/Machine/Ops.lean ====
section
/-!
DEFINITION. The operations every meaning is built from: field updates, the fault and refusal records,
`draw()`, responses, the ring operations, chip select and its edges.

The block takes no exception and returns from none (R171, R178, R179), so there is no trap entry here; what
stands in its place is the recording of a model outcome, `raiseFault` and `refuse` (R13).
-/

namespace Sys2Proof.Machine

/-- What `exec` and `step` answer. -/
abbrev Result := Host.Outcome State Fault Refusal

/-! ### Field updates -/

/-- The ring `q` (R17). -/
def State.ring (s : State) : RingId → Ring
  | .urx => s.urx
  | .utx => s.utx
  | .srx => s.srx
  | .stx => s.stx

/-- Put ring `r` in place of ring `q`. -/
def State.setRing (s : State) : RingId → Ring → State
  | .urx, r => { s with urx := r }
  | .utx, r => { s with utx := r }
  | .srx, r => { s with srx := r }
  | .stx, r => { s with stx := r }

/-- Update the UART's registers. -/
def State.onUart (s : State) (f : Uart → Uart) : State := { s with uart := f s.uart }

/-- Update the SPI master's registers. -/
def State.onSpi (s : State) (f : Spi → Spi) : State := { s with spi := f s.spi }

/-- Update the SFP. -/
def State.onSfp (s : State) (f : Sfp → Sfp) : State := { s with sfp := f s.sfp }

/-- Update the SFP's registers of R35 and R36. -/
def State.onRegs (s : State) (f : SfpRegs → SfpRegs) : State :=
  s.onSfp fun x => { x with regs := f x.regs }

/-- Socket `n`. -/
def State.sock (s : State) (n : SockIx) : Socket := s.sfp.regs.socks.get n

/-- Update socket `n`. -/
def State.onSock (s : State) (n : SockIx) (f : Socket → Socket) : State :=
  s.onRegs fun r => { r with socks := r.socks.set n (f (r.socks.get n)) }

/-! ### Outcomes, responses, free values -/

/-- `raise Fault(code)`: the code joins the record; it is never cleared (R13, R37). -/
def raiseFault (f : Fault) (s : State) : State :=
  if f ∈ s.faults then s else { s with faults := s.faults ++ [f] }

/-- `refuse(code)`: the code joins the record; it is never cleared (R13, R37). -/
def refuse (r : Refusal) (s : State) : State :=
  if r ∈ s.refusals then s else { s with refusals := s.refusals ++ [r] }

/-- Give a response. -/
def respond (r : Response) (s : State) : State := { s with responses := s.responses ++ [r] }

/-- The 8-bit response of a host read (R58). -/
def hostRead (v : Byte) (s : State) : State := respond (.hostRead v) s

/-- `emit(E)` (R12). -/
def emit (e : LineEvent) (s : State) : State := { s with trace := s.trace ++ [e] }

/-- `draw()` of a byte: the value, and the state with the draw taken (R12, log 6). -/
def draw (s : State) : Byte × State := (Config.freeByte s.draws, { s with draws := s.draws + 1 })

/-- `draw()` of a two-way choice (R159, log 17). -/
def drawChoice (s : State) : Bool × State :=
  (Config.freeChoice s.draws, { s with draws := s.draws + 1 })

/-! ### Ring operations (R74 to R77) -/

/-- The ring after `v` is stored at HEAD. -/
def Ring.store (r : Ring) (v : Byte) : Ring :=
  { r with buf := r.buf.set r.head v, head := (r.head + 1) % r.cap, count := r.count + 1 }

/-- PUSH: ACCEPT and the ring after; a full ring is unchanged (R74). -/
def Ring.push (r : Ring) (v : Byte) : Bool × Ring :=
  if r.count = r.cap then (false, r) else (true, r.store v)

/-- POP: the oldest byte, `none` where VALID = 0, and the ring after; an empty ring is unchanged (R75). -/
def Ring.pop (r : Ring) : Option Byte × Ring :=
  if r.count = 0 then (none, r)
  else (some (r.buf.getD r.tail 0), { r with tail := (r.tail + 1) % r.cap, count := r.count - 1 })

/-- PUSH on ring `q` of the block, ACCEPT dropped: a full ring drops the newest byte (R106, R129). -/
def pushRing (q : RingId) (v : Byte) (s : State) : State := s.setRing q ((s.ring q).push v).2

/-- POP of ring `q`, the byte dropped: the state after. -/
def popRing (q : RingId) (s : State) : State := s.setRing q (s.ring q).pop.2

/-- CLEAR of ring `q` (R77). -/
def clearRing (q : RingId) (s : State) : State := s.setRing q (s.ring q).clear

/-! ### Enables and busy conditions -/

/-- "Enabled" of spec/41_uart.md: RXEN or TXEN. -/
def Uart.enabled (u : Uart) : Bool := u.ctrl.rxen || u.ctrl.txen

/-- "Busy" of spec/42_spi_master.md: `SPI.SH ≠ IDLE ∨ SPI.DRAIN = ACTIVE`. -/
def Spi.busy (p : Spi) : Bool := decide (p.sh ≠ .idle) || decide (p.drain = .active)

/-! ### Chip select (R33, R131) -/

/-- `cs(i)`: line i is asserted (R33). -/
def cs (s : State) (i : Nat) : Bool :=
  s.spi.ctrl.spe && s.spi.ctrl.mstr && decide (i = s.spi.ssidx.toNat) && (s.spi.hold || s.spi.auto)

/-- The level of output `SS_N[i]`: active low (R33). -/
def ssN (s : State) (i : Nat) : Bool := !cs s i

/-- The SFP compares level `c` with CSPREV (R131). -/
def Sfp.edge (x : Sfp) (c : Bool) : Sfp :=
  if c && !x.csPrev then { x with phase := .addrHi, n := 0, csPrev := c }
  else if !c && x.csPrev then { x with phase := .idle, csPrev := c }
  else { x with csPrev := c }

/-- The end of every step of every agent: the SFP sees the level of its line (R131). -/
def endStep (s : State) : State := s.onSfp fun x => x.edge (cs s s.cfg.sfpSs)

end Sys2Proof.Machine
end

