-- ==== Sys2Proof/Machine/Flags.lean ====
section
/-!
DEFINITION. The flags: the status bytes as read, the write-1-to-clear rules, and the interrupt levels.
-/

namespace Sys2Proof.Machine

/-! ### Derived status bits and status bytes -/

/-- `UART.STATUS.RXNE` (R23). -/
def uartRxne (s : State) : Bool := decide (s.urx.count ≠ 0)

/-- `UART.STATUS.TXBUSY` (R23). -/
def uartTxbusy (s : State) : Bool := decide (s.utx.count ≠ 0) || decide (s.uart.txsh ≠ .idle)

/-- `UART_STATUS` as read (R86). -/
def uartStatusByte (s : State) : Byte :=
  packBits false false s.uart.flags.rxuf s.uart.flags.txovf s.uart.flags.txc s.uart.flags.txdone
    (uartTxbusy s) (uartRxne s)

/-- `UART_ERR` as read (R99). -/
def uartErrByte (e : UartErr) : Byte := packBits false false false false false e.cfgerr e.pe e.fe

/-- `SPI.STATUS.RXNE` (R30). -/
def spiRxne (s : State) : Bool := decide (s.srx.count ≠ 0)

/-- `SPI_STATUS` as read (R115). -/
def spiStatusByte (s : State) : Byte :=
  packBits false s.spi.flags.cfgerr s.spi.flags.rxuf s.spi.flags.txovf s.spi.flags.wcol s.spi.flags.tc
    s.spi.busy (spiRxne s)

/-! ### Write 1 to clear -/

/-- A W1C flag after a write of bit `b` to it. -/
def w1c (flag b : Bool) : Bool := flag && !b

/-- `WR UART_STATUS, v`: TXDONE(2), TXC(3), TXOVF(4), RXUF(5) (R87). -/
def uartFlagsW1c (v : Byte) (f : UartFlags) : UartFlags where
  txdone := w1c f.txdone (v.getLsbD 2)
  txc := w1c f.txc (v.getLsbD 3)
  txovf := w1c f.txovf (v.getLsbD 4)
  rxuf := w1c f.rxuf (v.getLsbD 5)

/-- `WR UART_ERR, v`: FE(0), PE(1), CFGERR(2) (R100). -/
def uartErrW1c (v : Byte) (e : UartErr) : UartErr where
  fe := w1c e.fe (v.getLsbD 0)
  pe := w1c e.pe (v.getLsbD 1)
  cfgerr := w1c e.cfgerr (v.getLsbD 2)

/-- `WR SPI_STATUS, v`: TC(2), WCOL(3), TXOVF(4), RXUF(5), CFGERR(6) (R116). -/
def spiFlagsW1c (v : Byte) (f : SpiFlags) : SpiFlags where
  tc := w1c f.tc (v.getLsbD 2)
  wcol := w1c f.wcol (v.getLsbD 3)
  txovf := w1c f.txovf (v.getLsbD 4)
  rxuf := w1c f.rxuf (v.getLsbD 5)
  cfgerr := w1c f.cfgerr (v.getLsbD 6)

/-! ### Setting a flag -/

/-- `UART.STATUS.TXOVF <- 1`. -/
def setUartTxovf (s : State) : State := s.onUart fun u => { u with flags := { u.flags with txovf := true } }

/-- `UART.STATUS.RXUF <- 1`. -/
def setUartRxuf (s : State) : State := s.onUart fun u => { u with flags := { u.flags with rxuf := true } }

/-- `UART.ERR.CFGERR <- 1`. -/
def setUartCfgerr (s : State) : State := s.onUart fun u => { u with err := { u.err with cfgerr := true } }

/-- `SPI.STATUS.TXOVF <- 1`. -/
def setSpiTxovf (s : State) : State := s.onSpi fun p => { p with flags := { p.flags with txovf := true } }

/-- `SPI.STATUS.RXUF <- 1`. -/
def setSpiRxuf (s : State) : State := s.onSpi fun p => { p with flags := { p.flags with rxuf := true } }

/-- `SPI.STATUS.WCOL <- 1`. -/
def setSpiWcol (s : State) : State := s.onSpi fun p => { p with flags := { p.flags with wcol := true } }

/-- `SPI.STATUS.TC <- 1`. -/
def setSpiTc (s : State) : State := s.onSpi fun p => { p with flags := { p.flags with tc := true } }

/-- `SPI.STATUS.CFGERR <- 1`. -/
def setSpiCfgerr (s : State) : State := s.onSpi fun p => { p with flags := { p.flags with cfgerr := true } }

/-! ### Interrupt outputs -/

/-- `IRQ_UART`, a level (R175). -/
def irqUart (s : State) : Bool :=
  (s.uart.ctrl.rxie && decide (s.urx.count ≠ 0)) ||
  (s.uart.ctrl.txie && (if s.uart.ctrl.txmode then s.uart.flags.txc else s.uart.flags.txdone))

/-- `IRQ_SPI`, a level (R176). -/
def irqSpi (s : State) : Bool := s.spi.ctrl.spie && s.spi.flags.tc

end Sys2Proof.Machine
end

