-- ==== Sys2Proof/Machine/Sfp.lean ====
section
/-!
DEFINITION. The SPI frame parser: the address space, the data slot and the byte slot (spec/43_spi_frame_parser.md
R132 to R153), the resets and the settle step (R166 to R168), NET's spontaneous events (R155).
-/

namespace Sys2Proof.Machine

/-! ### Common block (R147) -/

/-- What a common register reads (R147). -/
def commonValue (r : SfpRegs) : CommonReg → Byte
  | .mr => r.mr
  | .gar i => r.gar.get i
  | .subr i => r.subr.get i
  | .shar i => r.shar.get i
  | .sipr i => r.sipr.get i

/-- Soft reset: every register of R35 and R36 to its reset value, MR = 0x80, settling (R166). The phase,
address, control, count and CSPREV are kept. -/
def softReset (s : State) : State :=
  s.onSfp fun x => { x with regs := { sfpRegsReset with mr := 0x80 }, resetting := true }

/-- A write of MR: bit 7 is a soft reset, else bits 6:0 are stored (R166). -/
def writeMr (v : Byte) (s : State) : State :=
  if v.getLsbD 7 then softReset s
  else s.onRegs fun r => { r with mr := (r.mr &&& 0x80) ||| (v &&& 0x7F) }

/-- A write of a common register (R147). -/
def commonWrite (r : CommonReg) (v : Byte) (s : State) : State :=
  match r with
  | .mr => writeMr v s
  | .gar i => s.onRegs fun x => { x with gar := x.gar.set i v }
  | .subr i => s.onRegs fun x => { x with subr := x.subr.set i v }
  | .shar i => s.onRegs fun x => { x with shar := x.shar.set i v }
  | .sipr i => s.onRegs fun x => { x with sipr := x.sipr.set i v }

/-! ### Socket registers (R148 to R151) -/

/-- `Σ_n S[n].RXSZ` (R151). -/
def rxTotal (s : State) : Nat := (s.sfp.regs.socks.toList.map fun k => k.rxsz.toNat).sum

/-- `Σ_n S[n].TXSZ` (R151). -/
def txTotal (s : State) : Nat := (s.sfp.regs.socks.toList.map fun k => k.txsz.toNat).sum

/-- `check_total()`: a fault where a direction's sizes sum to more than 16 (R151); what follows it in the
pseudocode still happens (log 14). -/
def checkTotal (s : State) : State :=
  if 16 < rxTotal s ∨ 16 < txTotal s then raiseFault .sfpBufsizeTotal s else s

/-- A reserved command byte is refused when written (R165). -/
def refuseCommand (s : State) : State := refuse .sfpCmdReserved s

/-- A write of command byte `c` to `S[n].CR` (R150). -/
def writeCr (n : SockIx) (c : Byte) (s : State) : State :=
  if c = 0 then s
  else if (s.sock n).crpend ≠ 0 then raiseFault .sfpCmdOverrun s
  else if commandCodes.contains c then (checkTotal s).onSock n fun k => { k with crpend := c }
  else refuseCommand s

/-- A write of Sn_RXBUF_SIZE (R151). -/
def writeRxsz (n : SockIx) (v : Byte) (s : State) : State :=
  if legalSize v = false then raiseFault .sfpIllegalBufsize s
  else if v = (s.sock n).rxsz then s
  else s.onSock n fun k => { k with rxsz := v, rxbuf := [] }

/-- A write of Sn_TXBUF_SIZE (R151). -/
def writeTxsz (n : SockIx) (v : Byte) (s : State) : State :=
  if legalSize v = false then raiseFault .sfpIllegalBufsize s
  else if v = (s.sock n).txsz then s
  else s.onSock n fun k => { k with txsz := v, txbuf := [] }

/-- What a socket register reads (R148). -/
def sockValue (k : Socket) : SockReg → Byte
  | .mr => k.mr
  | .cr => k.crpend
  | .sr => statusCode k.sr
  | .port0 => k.port0
  | .port1 => k.port1
  | .rxsz => k.rxsz
  | .txsz => k.txsz

/-- A write of a socket register; Sn_SR is read-only (R148). -/
def sockWrite (n : SockIx) (r : SockReg) (v : Byte) (s : State) : State :=
  match r with
  | .mr => s.onSock n fun k => { k with mr := v }
  | .cr => writeCr n v s
  | .sr => s
  | .port0 => s.onSock n fun k => { k with port0 := v }
  | .port1 => s.onSock n fun k => { k with port1 := v }
  | .rxsz => writeRxsz n v s
  | .txsz => writeTxsz n v s

/-! ### Buffers (R144, R152) -/

/-- A buffer read at offset `off` of a buffer of `sz` KiB with cells `m`: an unwritten cell reads `draw()`
(R152). -/
def bufRead (sz : Byte) (m : Memory) (off : Word16) (s : State) : Byte × State :=
  if sz = 0 then draw (refuse .sfpBufZero (checkTotal s))
  else
    match m.read (cellIndex off sz) with
    | some v => (v, checkTotal s)
    | none => draw (checkTotal s)

/-- A TX-buffer write (R144). -/
def txBufWrite (n : SockIx) (off : Word16) (v : Byte) (s : State) : State :=
  if (s.sock n).txsz = 0 then refuse .sfpBufZero (checkTotal s)
  else (checkTotal s).onSock n fun k => { k with txbuf := k.txbuf.write (cellIndex off k.txsz) v }

/-! ### The address space (R138) -/

/-- A read of an unnamed register: refused, and it returns `draw()` (R153). -/
def unmodelledRead (s : State) : Byte × State := draw (refuse .sfpUnmodelledReg s)

/-- A write of an unnamed register: refused, and nothing changes (R153). -/
def unmodelledWrite (s : State) : State := refuse .sfpUnmodelledReg s

/-- `MemRead((bsb, off), 1)` (R138). A reserved block select never reaches here (R134); were one to, it would
be that fault (log 25). -/
def memRead (b : Bsb) (off : Word16) (s : State) : Byte × State :=
  match (bsbKind b).toNat with
  | 0 =>
    if bsbSock b = 0 then
      match commonReg off with
      | some r => (commonValue s.sfp.regs r, s)
      | none => unmodelledRead s
    else draw (raiseFault .sfpReservedBsb s)
  | 1 =>
    match sockReg off with
    | some r => (sockValue (s.sock (bsbSock b)) r, s)
    | none => unmodelledRead s
  | 2 => bufRead (s.sock (bsbSock b)).txsz (s.sock (bsbSock b)).txbuf off s
  | _ => bufRead (s.sock (bsbSock b)).rxsz (s.sock (bsbSock b)).rxbuf off s

/-- `MemWrite((bsb, off), 1, v)` (R138); a write into a receive buffer is refused (R146). -/
def memWrite (b : Bsb) (off : Word16) (v : Byte) (s : State) : State :=
  match (bsbKind b).toNat with
  | 0 =>
    if bsbSock b = 0 then
      match commonReg off with
      | some r => commonWrite r v s
      | none => unmodelledWrite s
    else raiseFault .sfpReservedBsb s
  | 1 =>
    match sockReg off with
    | some r => sockWrite (bsbSock b) r v s
    | none => unmodelledWrite s
  | 2 => txBufWrite (bsbSock b) off v s
  | _ => refuse .sfpRxbufWrite s

/-! ### Slots (R132 to R137) -/

/-- The counters after a data slot: the address modulo 2^16, N, and in FDM a new header once N = len(OM)
(R135, R136, R137). -/
def Sfp.advance (x : Sfp) : Sfp :=
  if (decodeOm x.ctl).len = some (x.n + 1) then { x with addr := x.addr + 1, n := 0, phase := .addrHi }
  else { x with addr := x.addr + 1, n := x.n + 1 }

/-- `DATA_SLOT(b)`: the MISO byte and the state after (R135). -/
def dataSlot (b : Byte) (s : State) : Byte × State :=
  let r :=
    if ctlWrite s.sfp.ctl then draw (memWrite (ctlBsb s.sfp.ctl) s.sfp.addr b s)
    else memRead (ctlBsb s.sfp.ctl) s.sfp.addr s
  (r.1, r.2.onSfp Sfp.advance)

/-- The link check: MSB-first and SPI mode 0 or 3 (R132). -/
def linkOk (s : State) : Bool := !s.spi.ctrl.dord && decide (s.spi.ctrl.cpol = s.spi.ctrl.cpha)

/-- The parser takes byte `b` as a header byte (R133): the address latches, then the control byte with its
reserved block selects (R134). -/
def ctrlSlot (b : Byte) (s : State) : State :=
  if reservedBsb (ctlBsb b) then
    (raiseFault .sfpReservedBsb s).onSfp fun x => { x with ctl := b, n := 0, phase := .idle }
  else s.onSfp fun x => { x with ctl := b, n := 0, phase := .data }

/-- `SFP_slot(b)`: one byte slot; the MISO byte and the state after (R133). -/
def sfpSlot (b : Byte) (s : State) : Byte × State :=
  if s.sfp.resetting then draw (raiseFault .sfpFrameDuringReset s)
  else if linkOk s then
    match s.sfp.phase with
    | .idle => draw s
    | .addrHi => draw (s.onSfp fun x => { x with addr := b ++ x.addr.extractLsb' 0 8, phase := .addrLo })
    | .addrLo => draw (s.onSfp fun x => { x with addr := x.addr.extractLsb' 8 8 ++ b, phase := .ctrl })
    | .ctrl => draw (ctrlSlot b s)
    | .data => dataSlot b s
  else draw (raiseFault .sfpLinkMode s)

/-! ### Resets and settling (R167, R168) -/

/-- `PIN SFP_HARD_RESET` (R167). -/
def hardReset (s : State) : State :=
  s.onSfp fun _ =>
    { phase := .idle, addr := 0, ctl := 0, n := 0, csPrev := cs s s.cfg.sfpSs, resetting := true,
      regs := sfpRegsReset }

/-- The settle step; no step where nothing settles (R168). -/
def sfpSettle (s : State) : State :=
  if s.sfp.resetting then
    s.onSfp fun x => { x with resetting := false, regs := { x.regs with mr := x.regs.mr &&& 0x7F } }
  else s

/-! ### NET's spontaneous events (R155 item 2) -/

/-- Socket `n` moves to `sr` where R155 lists it; else no step. -/
def netStatus (n : SockIx) (sr : SockStatus) (s : State) : State :=
  if s.sfp.resetting = false ∧ mayBecome (s.sock n).sr sr then s.onSock n fun k => { k with sr := sr }
  else s

/-- Cell `i` of socket `n`'s receive buffer takes `v` where R155 allows it; else no step. -/
def netRx (n : SockIx) (i : Nat) (v : Byte) (s : State) : State :=
  if s.sfp.resetting = false ∧ carriesData (s.sock n).sr ∧ i < cellsOf (s.sock n).rxsz then
    s.onSock n fun k => { k with rxbuf := k.rxbuf.write i v }
  else s

end Sys2Proof.Machine
end

