-- ==== Sys2Proof/Machine/Frame.lean ====
section
/-!
DEFINITION. The frame kinds (spec/43_spi_frame_parser.md R139 to R146, and R134 for the reserved block
selects): a frame is its bytes, sent under one assertion of line SFP_SS (R62, R69), each taken by the byte
slot of R133 (log 9).
-/

namespace Sys2Proof.Machine

/-- The bytes of one assertion, slot after slot: the MISO bytes in order and the state after. -/
def slots : List Byte → State → List Byte × State
  | [], s => ([], s)
  | b :: rest, s =>
    let r := sfpSlot b s
    let t := slots rest r.2
    (r.1 :: t.1, t.2)

/-- The line is asserted: a frame begins where it was not asserted before (R131). -/
def assertLine (s : State) : State := s.onSfp fun x => x.edge true

/-- One assertion of SFP_SS with these bytes: assert, the slots, the MISO bytes as response, and the line back
at the level the SPI master drives (R131), which ends the frame unless the master holds the line itself. -/
def runFrame (bytes : List Byte) (s : State) : State :=
  let t := slots bytes (assertLine s)
  endStep (respond (.miso t.1) t.2)

/-- R139. -/
def execFrameCommonRead (off : Word16) (om : OpMode) (len : Nat) (s : State) : Result :=
  .next (runFrame (frameBytes 0 false off om (dummies len)) s)

/-- R140. -/
def execFrameCommonWrite (off : Word16) (om : OpMode) (data : List Byte) (s : State) : Result :=
  .next (runFrame (frameBytes 0 true off om data) s)

/-- R134, block select 4: the control byte faults and the data bytes are ignored. -/
def execFrameReservedBsb4 (off : Word16) (rwb : Bool) (om : OpMode) (data : List Byte) (s : State) : Result :=
  .next (runFrame (frameBytes 4 rwb off om data) s)

/-- R134, block select 8: the control byte faults and the data bytes are ignored. -/
def execFrameReservedBsb8 (off : Word16) (rwb : Bool) (om : OpMode) (data : List Byte) (s : State) : Result :=
  .next (runFrame (frameBytes 8 rwb off om data) s)

/-- R134, block select 12: the control byte faults and the data bytes are ignored. -/
def execFrameReservedBsb12 (off : Word16) (rwb : Bool) (om : OpMode) (data : List Byte) (s : State) : Result :=
  .next (runFrame (frameBytes 12 rwb off om data) s)

/-- R134, block select 16: the control byte faults and the data bytes are ignored. -/
def execFrameReservedBsb16 (off : Word16) (rwb : Bool) (om : OpMode) (data : List Byte) (s : State) : Result :=
  .next (runFrame (frameBytes 16 rwb off om data) s)

/-- R134, block select 20: the control byte faults and the data bytes are ignored. -/
def execFrameReservedBsb20 (off : Word16) (rwb : Bool) (om : OpMode) (data : List Byte) (s : State) : Result :=
  .next (runFrame (frameBytes 20 rwb off om data) s)

/-- R134, block select 24: the control byte faults and the data bytes are ignored. -/
def execFrameReservedBsb24 (off : Word16) (rwb : Bool) (om : OpMode) (data : List Byte) (s : State) : Result :=
  .next (runFrame (frameBytes 24 rwb off om data) s)

/-- R134, block select 28: the control byte faults and the data bytes are ignored. -/
def execFrameReservedBsb28 (off : Word16) (rwb : Bool) (om : OpMode) (data : List Byte) (s : State) : Result :=
  .next (runFrame (frameBytes 28 rwb off om data) s)

/-- R141. -/
def execFrameSockRegRead (n : SockIx) (off : Word16) (om : OpMode) (len : Nat) (s : State) : Result :=
  .next (runFrame (frameBytes (bsbOf n 1) false off om (dummies len)) s)

/-- R142. -/
def execFrameSockRegWrite (n : SockIx) (off : Word16) (om : OpMode) (data : List Byte) (s : State) : Result :=
  .next (runFrame (frameBytes (bsbOf n 1) true off om data) s)

/-- R143. -/
def execFrameTxBufRead (n : SockIx) (off : Word16) (om : OpMode) (len : Nat) (s : State) : Result :=
  .next (runFrame (frameBytes (bsbOf n 2) false off om (dummies len)) s)

/-- R144. -/
def execFrameTxBufWrite (n : SockIx) (off : Word16) (om : OpMode) (data : List Byte) (s : State) : Result :=
  .next (runFrame (frameBytes (bsbOf n 2) true off om data) s)

/-- R145. -/
def execFrameRxBufRead (n : SockIx) (off : Word16) (om : OpMode) (len : Nat) (s : State) : Result :=
  .next (runFrame (frameBytes (bsbOf n 3) false off om (dummies len)) s)

/-- R146: the header is accepted, each data byte refused. -/
def execFrameRxBufWrite (n : SockIx) (off : Word16) (om : OpMode) (data : List Byte) (s : State) : Result :=
  .next (runFrame (frameBytes (bsbOf n 3) true off om data) s)

end Sys2Proof.Machine
end

