-- ==== Sys2Proof/Machine/Uart.lean ====
section
/-!
DEFINITION. The HOST operations on the UART's registers (spec/41_uart.md R84 to R102) and its engines (R104
to R106).
-/

namespace Sys2Proof.Machine

/-! ### Shared operations -/

/-- Read of a receive DATA register: pop the ring, or set RXUF (by `uf`) and return 0x00 (R85, R114). -/
def readData (q : RingId) (uf : State → State) (s : State) : State :=
  match (s.ring q).pop.1 with
  | some b => hostRead b (popRing q s)
  | none => hostRead 0 (uf s)

/-- Push `v` into a transmit ring, or drop it and set TXOVF (by `ovf`) (R84, R112). -/
def writeData (q : RingId) (ovf : State → State) (v : Byte) (s : State) : State :=
  if ((s.ring q).push v).1 then pushRing q v s else ovf s

/-- The divisor that code `c` and oversampling `u2x` give with this block's F_CLK (R81). -/
def divisorOf (s : State) (c : Fin 9) (u2x : Bool) : Int := divisor s.cfg.fClk (baudTab c) u2x

/-- The configuration part of `WR UART_CTRL, v` (R89), judged on the values before the write. -/
def uartCtrlConfig (v : Byte) (s : State) : State :=
  let old := s.uart.ctrl
  if v.getLsbD 4 = old.u2x ∧ v.getLsbD 5 = old.txmode ∧ v.getLsbD 6 = old.loop then s
  else if s.uart.enabled then setUartCfgerr s
  else if v.getLsbD 4 ≠ old.u2x ∧ divisorValid (divisorOf s s.uart.baud (v.getLsbD 4)) = false then
    setUartCfgerr s
  else s.onUart fun u =>
    { u with
      ctrl := { u.ctrl with u2x := v.getLsbD 4, txmode := v.getLsbD 5, loop := v.getLsbD 6 }
      div := divBits (divisorOf s s.uart.baud (v.getLsbD 4)) }

/-- The enables of `WR UART_CTRL, v`: RXEN, TXEN, RXIE, TXIE from bits 0 to 3 (R89). -/
def uartCtrlEnables (v : Byte) (s : State) : State :=
  s.onUart fun u =>
    { u with ctrl := { u.ctrl with rxen := v.getLsbD 0, txen := v.getLsbD 1, rxie := v.getLsbD 2,
                                   txie := v.getLsbD 3 } }

/-- `WR UART_CTRL, v` (R89). -/
def uartCtrlWrite (v : Byte) (s : State) : State := uartCtrlEnables v (uartCtrlConfig v s)

/-- `WR UART_FRAME, v` (R91). -/
def uartFrameWrite (v : Byte) (s : State) : State :=
  if s.uart.enabled then
    if v.extractLsb' 0 5 = fmtBits s.uart.frame then s else setUartCfgerr s
  else
    match fmtOfBits (v.extractLsb' 0 5) with
    | none => setUartCfgerr s
    | some f => s.onUart fun u => { u with frame := f }

/-- `WR UART_BAUD, v` (R93). -/
def uartBaudWrite (v : Byte) (s : State) : State :=
  let c := (v.extractLsb' 0 4).toNat
  if s.uart.enabled then
    if c = s.uart.baud.val then s else setUartCfgerr s
  else if h : c < 9 then
    if divisorValid (divisorOf s ⟨c, h⟩ s.uart.ctrl.u2x) then
      s.onUart fun u => { u with baud := ⟨c, h⟩, div := divBits (divisorOf s ⟨c, h⟩ s.uart.ctrl.u2x) }
    else setUartCfgerr s
  else setUartCfgerr s

/-- `WR UART_CMD, v`: CLR_RX then CLR_TX in one step (R102). -/
def uartCmdWrite (v : Byte) (s : State) : State :=
  let s1 := if v.getLsbD 0 then clearRing .urx s else s
  if v.getLsbD 1 then clearRing .utx s1 else s1

/-! ### Meanings -/

/-- R85. -/
def execRdUartData (s : State) : Result := .next (readData .urx setUartRxuf s)

/-- R84. -/
def execWrUartData (v : Byte) (s : State) : Result := .next (writeData .utx setUartTxovf v s)

/-- R86. -/
def execRdUartStatus (s : State) : Result := .next (hostRead (uartStatusByte s) s)

/-- R87. -/
def execWrUartStatus (v : Byte) (s : State) : Result :=
  .next (s.onUart fun u => { u with flags := uartFlagsW1c v u.flags })

/-- R88. -/
def execRdUartCtrl (s : State) : Result := .next (hostRead (uartCtrlByte s.uart.ctrl) s)

/-- R89. -/
def execWrUartCtrl (v : Byte) (s : State) : Result := .next (uartCtrlWrite v s)

/-- R90: `{0b000, PAR, SBS, CHSZ}`. -/
def execRdUartFrame (s : State) : Result :=
  .next (hostRead ((fmtBits s.uart.frame).setWidth 8) s)

/-- R91. -/
def execWrUartFrame (v : Byte) (s : State) : Result := .next (uartFrameWrite v s)

/-- R92: `{0b0000, CODE}`. -/
def execRdUartBaud (s : State) : Result := .next (hostRead (BitVec.ofNat 8 s.uart.baud.val) s)

/-- R93. -/
def execWrUartBaud (v : Byte) (s : State) : Result := .next (uartBaudWrite v s)

/-- R94: `DIV[7:0]`. -/
def execRdUartDivl (s : State) : Result := .next (hostRead (s.uart.div.extractLsb' 0 8) s)

/-- R96: ignored. -/
def execWrUartDivl (_v : Byte) (s : State) : Result := .next s

/-- R95: `DIV[15:8]`. -/
def execRdUartDivh (s : State) : Result := .next (hostRead (s.uart.div.extractLsb' 8 8) s)

/-- R96: ignored. -/
def execWrUartDivh (_v : Byte) (s : State) : Result := .next s

/-- R97. -/
def execRdUartRxcnt (s : State) : Result := .next (hostRead (countByte s.urx.count) s)

/-- R96: ignored. -/
def execWrUartRxcnt (_v : Byte) (s : State) : Result := .next s

/-- R98. -/
def execRdUartTxcnt (s : State) : Result := .next (hostRead (countByte s.utx.count) s)

/-- R96: ignored. -/
def execWrUartTxcnt (_v : Byte) (s : State) : Result := .next s

/-- R99. -/
def execRdUartErr (s : State) : Result := .next (hostRead (uartErrByte s.uart.err) s)

/-- R100. -/
def execWrUartErr (v : Byte) (s : State) : Result :=
  .next (s.onUart fun u => { u with err := uartErrW1c v u.err })

/-- R101: 0x00. -/
def execRdUartCmd (s : State) : Result := .next (hostRead 0 s)

/-- R102. -/
def execWrUartCmd (v : Byte) (s : State) : Result := .next (uartCmdWrite v s)

/-! ### Engines -/

/-- FE of a received frame: the first stop bit is 0 (R106). -/
def frameError (f : RxFrame) : Bool := !f.s1

/-- PE of a received frame: a parity bit is expected and the frame's is not it (R106). -/
def parityError (fmt : FrameFmt) (f : RxFrame) : Bool :=
  decide (fmt.par ≠ .absent) && decide (f.p ≠ parityBit fmt.par (lowBits (dataBits fmt) f.d))

/-- The receive engine takes a delivered frame (R106). -/
def receive (f : RxFrame) (s : State) : State :=
  if s.uart.ctrl.rxen then
    pushRing .urx (lowBits (dataBits s.uart.frame) f.d) (s.onUart fun u =>
      { u with err := { u.err with fe := u.err.fe || frameError f,
                                   pe := u.err.pe || parityError u.frame f } })
  else s

/-- A LINE frame: discarded while LOOP = 1 (R106). -/
def lineFrame (f : RxFrame) (s : State) : State := if s.uart.ctrl.loop then s else receive f s

/-- UTX load step; no step where it is not enabled (R104). -/
def utxStart (s : State) : State :=
  if s.uart.ctrl.txen ∧ s.uart.txsh = .idle then
    match s.utx.pop.1 with
    | some b => (popRing .utx s).onUart fun u => { u with txsh := .busy b u.frame }
    | none => s
  else s

/-- The flags of a completed frame: TXC, and TXDONE where UTX is empty (R105). -/
def txComplete (s : State) : State :=
  s.onUart fun u =>
    { u with txsh := .idle
             flags := { u.flags with txc := true, txdone := u.flags.txdone || decide (s.utx.count = 0) } }

/-- UTX completion step; no step where the shifter is idle (R105). -/
def utxFinish (s : State) : State :=
  match s.uart.txsh with
  | .idle => s
  | .busy b fmt =>
    let d := lowBits (dataBits fmt) b
    let p := parityBit fmt.par d
    let s1 := emit (.uartTxFrame d (dataBits fmt) p (stopBits fmt)) s
    let s2 := if s.uart.ctrl.loop then receive { d := d, p := p, s1 := true, s2 := true } s1 else s1
    txComplete s2

end Sys2Proof.Machine
end

