-- ==== Sys2Proof/Machine/Spi.lean ====
section
/-!
DEFINITION. The HOST operations on the SPI master's registers (spec/42_spi_master.md R112 to R127) and its
engine steps (R128, R129).
-/

namespace Sys2Proof.Machine

/-! ### Shared operations -/

/-- `LOAD(v)`: a load while the shifter is busy is a write collision (R113). -/
def spiLoad (v : Byte) (s : State) : State :=
  if s.spi.sh = .idle then s.onSpi fun p => { p with sh := .busy v, auto := true } else setSpiWcol s

/-- `WR SPI_DATA, v` (R112). -/
def spiDataWrite (v : Byte) (s : State) : State :=
  if s.spi.ctrl.buf then writeData .stx setSpiTxovf v s
  else if s.spi.ctrl.spe then spiLoad v s
  else setSpiCfgerr s

/-- The configuration bits of `WR SPI_CTRL, v`: MSTR, DORD, CPOL, CPHA, BUF, locked while SPE = 1 (R118). -/
def spiCtrlConfig (v : Byte) (s : State) : State :=
  if v.extractLsb' 1 5 = spiConfigBits s.spi.ctrl then s
  else if s.spi.ctrl.spe then setSpiCfgerr s
  else s.onSpi fun p =>
    { p with ctrl := { p.ctrl with mstr := v.getLsbD 1, dord := v.getLsbD 2, cpol := v.getLsbD 3,
                                   cpha := v.getLsbD 4, buf := v.getLsbD 5 } }

/-- The SPE bit of `WR SPI_CTRL, v`, locked while busy (R118). -/
def spiCtrlEnable (v : Byte) (s : State) : State :=
  if v.getLsbD 0 = s.spi.ctrl.spe then s
  else if s.spi.busy then setSpiCfgerr s
  else s.onSpi fun p => { p with ctrl := { p.ctrl with spe := v.getLsbD 0 } }

/-- `WR SPI_CTRL, v`: configuration, SPE, SPIE, then the slave refusal (R118, R111). -/
def spiCtrlWrite (v : Byte) (s : State) : State :=
  let s1 := (spiCtrlEnable v (spiCtrlConfig v s)).onSpi fun p =>
    { p with ctrl := { p.ctrl with spie := v.getLsbD 6 } }
  if s1.spi.ctrl.spe ∧ s1.spi.ctrl.mstr = false then refuse .spiSlave s1 else s1

/-- `WR SPI_CLKSEL, v` (R120). -/
def spiClkselWrite (v : Byte) (s : State) : State :=
  let c := (v.extractLsb' 0 3).toNat
  if c = s.spi.clksel.val then s
  else if s.spi.ctrl.spe then setSpiCfgerr s
  else if h : c < 7 then s.onSpi fun p => { p with clksel := ⟨c, h⟩ }
  else setSpiCfgerr s

/-- `WR SPI_SS, v` (R122). -/
def spiSsWrite (v : Byte) (s : State) : State :=
  if v.getLsbD 7 = s.spi.hold ∧ v.extractLsb' 0 3 = s.spi.ssidx then s
  else if s.spi.busy then setSpiCfgerr s
  else if s.cfg.nSs ≤ (v.extractLsb' 0 3).toNat then setSpiCfgerr s
  else s.onSpi fun p => { p with hold := v.getLsbD 7, ssidx := v.extractLsb' 0 3 }

/-- GO (R127). -/
def spiGo (s : State) : State :=
  if s.spi.ctrl.spe = false ∨ s.spi.ctrl.buf = false then setSpiCfgerr s
  else if s.spi.drain = .active then s
  else if s.stx.count = 0 then s
  else s.onSpi fun p => { p with drain := .active, auto := true }

/-- `WR SPI_CMD, v`: CLR_RX, CLR_TX, GO, in this order in one step (R127). -/
def spiCmdWrite (v : Byte) (s : State) : State :=
  let s1 := if v.getLsbD 0 then clearRing .srx s else s
  let s2 := if v.getLsbD 1 then clearRing .stx s1 else s1
  if v.getLsbD 2 then spiGo s2 else s2

/-! ### Meanings -/

/-- R114. -/
def execRdSpiData (s : State) : Result := .next (readData .srx setSpiRxuf s)

/-- R112. -/
def execWrSpiData (v : Byte) (s : State) : Result := .next (spiDataWrite v s)

/-- R115. -/
def execRdSpiStatus (s : State) : Result := .next (hostRead (spiStatusByte s) s)

/-- R116. -/
def execWrSpiStatus (v : Byte) (s : State) : Result :=
  .next (s.onSpi fun p => { p with flags := spiFlagsW1c v p.flags })

/-- R117. -/
def execRdSpiCtrl (s : State) : Result := .next (hostRead (spiCtrlByte s.spi.ctrl) s)

/-- R118. -/
def execWrSpiCtrl (v : Byte) (s : State) : Result := .next (spiCtrlWrite v s)

/-- R119: `{0b00000, CODE}`. -/
def execRdSpiClksel (s : State) : Result := .next (hostRead (BitVec.ofNat 8 s.spi.clksel.val) s)

/-- R120. -/
def execWrSpiClksel (v : Byte) (s : State) : Result := .next (spiClkselWrite v s)

/-- R121. -/
def execRdSpiSs (s : State) : Result := .next (hostRead (spiSsByte s.spi.hold s.spi.ssidx) s)

/-- R122. -/
def execWrSpiSs (v : Byte) (s : State) : Result := .next (spiSsWrite v s)

/-- R123. -/
def execRdSpiRxcnt (s : State) : Result := .next (hostRead (countByte s.srx.count) s)

/-- R125: ignored. -/
def execWrSpiRxcnt (_v : Byte) (s : State) : Result := .next s

/-- R124. -/
def execRdSpiTxcnt (s : State) : Result := .next (hostRead (countByte s.stx.count) s)

/-- R125: ignored. -/
def execWrSpiTxcnt (_v : Byte) (s : State) : Result := .next s

/-- R126: 0x00. -/
def execRdSpiCmd (s : State) : Result := .next (hostRead 0 s)

/-- R127. -/
def execWrSpiCmd (v : Byte) (s : State) : Result := .next (spiCmdWrite v s)

/-! ### Engine steps -/

/-- Drain sequencer step; no step where it is not enabled (R128). -/
def spiDrain (s : State) : State :=
  if s.spi.drain = .active ∧ s.spi.sh = .idle then
    match s.stx.pop.1 with
    | some b => spiLoad b (popRing .stx s)
    | none => s.onSpi fun p => { p with drain := .idle, auto := false }
  else s

/-- The slave's answer to byte `b`: the SFP's slot on its own line, else `draw()` (R129). -/
def spiExchange (b : Byte) (s : State) : Byte × State :=
  if s.spi.ssidx.toNat = s.cfg.sfpSs then sfpSlot b s else draw s

/-- The `SPI_XFER` event (R129). -/
def spiXferEvent (p : Spi) (b miso : Byte) : LineEvent :=
  .spiXfer p.ssidx.toNat b miso p.ctrl.dord p.ctrl.cpol p.ctrl.cpha (spiDiv p.clksel)

/-- The master's registers once a byte is done: SH idle, TC set, and AUTO released in unbuffered mode
(R129). -/
def Spi.byteDone (p : Spi) : Spi :=
  { p with sh := .idle, flags := { p.flags with tc := true },
           auto := if p.drain = .idle then false else p.auto }

/-- Transfer completion step; no step where the shifter is idle (R129). -/
def spiComplete (s : State) : State :=
  match s.spi.sh with
  | .idle => s
  | .busy b =>
    let r := spiExchange b s
    pushRing .srx r.1 ((emit (spiXferEvent s.spi b r.1) r.2).onSpi Spi.byteDone)

end Sys2Proof.Machine
end

