-- ==== Sys2Proof/Machine/HostPort.lean ====
section
/-!
DEFINITION. HOST requests outside the named registers: reserved offsets (R48), the pin operations (R59, R167,
R169), accesses of another width (R45); and the block reset (R187).
-/

namespace Sys2Proof.Machine

/-- R48: a read of a reserved offset returns 0x00. -/
def execRdReserved (_off : Byte) (s : State) : Result := .next (hostRead 0 s)

/-- R48: a write of a reserved offset is ignored. -/
def execWrReserved (_off _v : Byte) (s : State) : Result := .next s

/-- R167. -/
def execPinSfpHardReset (s : State) : Result := .next (hardReset s)

/-- The pin operation DELAY_SETTLE as HOST issues it, 0x20001 (R169). -/
def delaySettleAccess : HostAccess := { width := 8, req := pinWord 1 }

/-- R169: no effect once the SFP is settled. While it settles the step is not enabled: HOST waits, and the
operation stays the next request of its program (log 15). -/
def execPinDelaySettle (s : State) : Result :=
  .next (if s.sfp.resetting then { s with hostq := delaySettleAccess :: s.hostq } else s)

/-- R59: refused HOST_PINOP, nothing else changes. -/
def execPinReserved (_w : BitVec 17) (s : State) : Result := .next (refuse .hostPinop s)

/-- R45: a host access of a width other than 8 bits is refused, and nothing else changes. -/
def hostWidth (s : State) : State := refuse .hostWidth s

/-- The block reset: every MCU-side field to its block-reset value; ring storage is unspecified and kept; the
SFP, the records, the trace and the inputs are not touched (R187, log 21). -/
def blockReset (s : State) : State :=
  { s with
    urx := s.urx.clear
    utx := s.utx.clear
    srx := s.srx.clear
    stx := s.stx.clear
    uart := uartReset s.cfg
    spi := spiReset }

end Sys2Proof.Machine
end

