-- ==== Sys2Proof/Machine/RingPort.lean ====
section
/-!
DEFINITION. The ports of the rings and who drives them (spec/40_ringbuffer.md R71), and the ring-port operations
RBOP (R74 to R77) on a ring of the block.
-/

namespace Sys2Proof.Machine

/-! ### Ports (R71) -/

/-- The one agent that drives a port, as R71 and the table before it assign: HOST is one side of every ring and an
engine the other, and HOST owns the control port. -/
def portAgent : RingId → Port → Agent
  | _, .control => .host
  | .urx, .producer => .urx
  | .urx, .consumer => .host
  | .utx, .producer => .host
  | .utx, .consumer => .utx
  | .srx, .producer => .spi
  | .srx, .consumer => .host
  | .stx, .producer => .host
  | .stx, .consumer => .spi

/-- Which port issues an operation, given by its code OP (R61): PUSH at the producer port, POP at the consumer port,
CLEAR at the control port, COUNT at any port (R71). -/
def portIssues (p : Port) (op : BitVec 10) : Bool :=
  match (op.extractLsb' 8 2).toNat with
  | 0 => decide (p = .producer)
  | 1 => decide (p = .consumer)
  | 2 => true
  | _ => decide (p = .control)

/-- Agent `a` may issue `op` at port `p` of ring `q` (R71). -/
def portAllows (a : Agent) (p : Port) (q : RingId) (op : BitVec 10) : Bool :=
  decide (portAgent q p = a) && portIssues p op

/-- A port that issues `op`; for COUNT, which any port issues, the control port. -/
def portOf (op : BitVec 10) : Port :=
  match (op.extractLsb' 8 2).toNat with
  | 0 => .producer
  | 1 => .consumer
  | _ => .control

/-! ### Operations -/

/-- R74: ACCEPT is the response. -/
def execRbPush (q : RingId) (v : Byte) (s : State) : Result :=
  .next (respond (.accept ((s.ring q).push v).1) (pushRing q v s))

/-- R75: VALID and RDATA are the response, RDATA 0x00 where VALID = 0. -/
def execRbPop (q : RingId) (s : State) : Result :=
  .next (respond (.popped (s.ring q).pop.1.isSome ((s.ring q).pop.1.getD 0)) (popRing q s))

/-- R76: COUNT is the response. -/
def execRbCount (q : RingId) (s : State) : Result :=
  .next (respond (.count (countByte (s.ring q).count)) s)

/-- R77: no response. -/
def execRbClear (q : RingId) (s : State) : Result := .next (clearRing q s)

end Sys2Proof.Machine
end

