-- ==== Sys2Proof/Machine/SockCmd.lean ====
section
/-!
DEFINITION. The socket commands (spec/43_spi_frame_parser.md R155 to R165). The nine commands run when NET takes
them from `S[n].CRPEND` (R155); 0x00 and the reserved codes never become pending, and their meaning is that of
their write (R150, R165; log 10).
-/

namespace Sys2Proof.Machine

/-- NET takes the command of socket `n`: the status becomes what `f` says of it, or, where `f` says nothing,
the command is refused and the status stays; either way CRPEND becomes 0x00 (R155, log 12). -/
def takeCommand (n : SockIx) (f : SockStatus → Option SockStatus) (s : State) : State :=
  match f (s.sock n).sr with
  | some sr => s.onSock n fun k => { k with sr := sr, crpend := 0 }
  | none => (refuse .netCmdState s).onSock n fun k => { k with crpend := 0 }

/-- The status a successful OPEN gives: by protocol MR[3:0], MACRAW on socket 0 only (R156). -/
def openStatus (n : SockIx) (mr : Byte) : SockStatus :=
  match (mr.extractLsb' 0 4).toNat with
  | 1 => .init
  | 2 => .udp
  | 4 => if n = 0 then .macraw else .closed
  | _ => .closed

/-- OPEN from CLOSED only (R156). -/
def openEffect (n : SockIx) (mr : Byte) : SockStatus → Option SockStatus
  | .closed => some (openStatus n mr)
  | _ => none

/-- LISTEN from INIT only (R157). -/
def listenEffect : SockStatus → Option SockStatus
  | .init => some .listen
  | _ => none

/-- CONNECT from INIT only (R158). -/
def connectEffect : SockStatus → Option SockStatus
  | .init => some .synsent
  | _ => none

/-- DISCON from ESTABLISHED or CLOSE_WAIT; `c` is the drawn choice (R159). -/
def disconEffect (c : Bool) : SockStatus → Option SockStatus
  | .established => some (if c then .finWait else .closed)
  | .closeWait => some (if c then .lastAck else .closed)
  | _ => none

/-- CLOSE from any status (R160). -/
def closeEffect (_sr : SockStatus) : Option SockStatus := some .closed

/-- SEND and RECV where the status carries data, which leaves the status (R161, R164). -/
def dataEffect (sr : SockStatus) : Option SockStatus := if carriesData sr then some sr else none

/-- SEND_MAC in UDP (R162). -/
def sendMacEffect : SockStatus → Option SockStatus
  | .udp => some .udp
  | _ => none

/-- SEND_KEEP in ESTABLISHED or CLOSE_WAIT (R163). -/
def sendKeepEffect : SockStatus → Option SockStatus
  | .established => some .established
  | .closeWait => some .closeWait
  | _ => none

/-- R150: writing 0x00 issues no command. -/
def execCmdNone (_n : SockIx) (s : State) : Result := .next s

/-- R156. -/
def execCmdOpen (n : SockIx) (s : State) : Result :=
  .next (takeCommand n (openEffect n (s.sock n).mr) s)

/-- R157. -/
def execCmdListen (n : SockIx) (s : State) : Result := .next (takeCommand n listenEffect s)

/-- R158. -/
def execCmdConnect (n : SockIx) (s : State) : Result := .next (takeCommand n connectEffect s)

/-- R159: the choice between the two statuses is `draw()`. -/
def execCmdDiscon (n : SockIx) (s : State) : Result :=
  .next (takeCommand n (disconEffect (drawChoice s).1) (drawChoice s).2)

/-- R160. -/
def execCmdClose (n : SockIx) (s : State) : Result := .next (takeCommand n closeEffect s)

/-- R161: what goes to the peer is outside the observation. -/
def execCmdSend (n : SockIx) (s : State) : Result := .next (takeCommand n dataEffect s)

/-- R162. -/
def execCmdSendMac (n : SockIx) (s : State) : Result := .next (takeCommand n sendMacEffect s)

/-- R163. -/
def execCmdSendKeep (n : SockIx) (s : State) : Result := .next (takeCommand n sendKeepEffect s)

/-- R164: the chip's receive pointers are no register of the block. -/
def execCmdRecv (n : SockIx) (s : State) : Result := .next (takeCommand n dataEffect s)

/-- R165: refused when written; it never becomes pending. -/
def execCmdReserved (_n : SockIx) (_c : Byte) (s : State) : Result := .next (refuseCommand s)

end Sys2Proof.Machine
end

