-- ==== Sys2Proof/Machine/Dispatch.lean ====
section
/-!
DEFINITION. One arm per constructor of Instr: the meaning of each request.
-/

namespace Sys2Proof.Machine

def exec (i : Instr) (s : State) : Host.Outcome State Fault Refusal :=
  match i with
  | .rdUartData => Sys2Proof.Machine.execRdUartData s
  | .wrUartData v => Sys2Proof.Machine.execWrUartData v s
  | .rdUartStatus => Sys2Proof.Machine.execRdUartStatus s
  | .wrUartStatus v => Sys2Proof.Machine.execWrUartStatus v s
  | .rdUartCtrl => Sys2Proof.Machine.execRdUartCtrl s
  | .wrUartCtrl v => Sys2Proof.Machine.execWrUartCtrl v s
  | .rdUartFrame => Sys2Proof.Machine.execRdUartFrame s
  | .wrUartFrame v => Sys2Proof.Machine.execWrUartFrame v s
  | .rdUartBaud => Sys2Proof.Machine.execRdUartBaud s
  | .wrUartBaud v => Sys2Proof.Machine.execWrUartBaud v s
  | .rdUartDivl => Sys2Proof.Machine.execRdUartDivl s
  | .wrUartDivl v => Sys2Proof.Machine.execWrUartDivl v s
  | .rdUartDivh => Sys2Proof.Machine.execRdUartDivh s
  | .wrUartDivh v => Sys2Proof.Machine.execWrUartDivh v s
  | .rdUartRxcnt => Sys2Proof.Machine.execRdUartRxcnt s
  | .wrUartRxcnt v => Sys2Proof.Machine.execWrUartRxcnt v s
  | .rdUartTxcnt => Sys2Proof.Machine.execRdUartTxcnt s
  | .wrUartTxcnt v => Sys2Proof.Machine.execWrUartTxcnt v s
  | .rdUartErr => Sys2Proof.Machine.execRdUartErr s
  | .wrUartErr v => Sys2Proof.Machine.execWrUartErr v s
  | .rdUartCmd => Sys2Proof.Machine.execRdUartCmd s
  | .wrUartCmd v => Sys2Proof.Machine.execWrUartCmd v s
  | .rdSpiData => Sys2Proof.Machine.execRdSpiData s
  | .wrSpiData v => Sys2Proof.Machine.execWrSpiData v s
  | .rdSpiStatus => Sys2Proof.Machine.execRdSpiStatus s
  | .wrSpiStatus v => Sys2Proof.Machine.execWrSpiStatus v s
  | .rdSpiCtrl => Sys2Proof.Machine.execRdSpiCtrl s
  | .wrSpiCtrl v => Sys2Proof.Machine.execWrSpiCtrl v s
  | .rdSpiClksel => Sys2Proof.Machine.execRdSpiClksel s
  | .wrSpiClksel v => Sys2Proof.Machine.execWrSpiClksel v s
  | .rdSpiSs => Sys2Proof.Machine.execRdSpiSs s
  | .wrSpiSs v => Sys2Proof.Machine.execWrSpiSs v s
  | .rdSpiRxcnt => Sys2Proof.Machine.execRdSpiRxcnt s
  | .wrSpiRxcnt v => Sys2Proof.Machine.execWrSpiRxcnt v s
  | .rdSpiTxcnt => Sys2Proof.Machine.execRdSpiTxcnt s
  | .wrSpiTxcnt v => Sys2Proof.Machine.execWrSpiTxcnt v s
  | .rdSpiCmd => Sys2Proof.Machine.execRdSpiCmd s
  | .wrSpiCmd v => Sys2Proof.Machine.execWrSpiCmd v s
  | .rdReserved off => Sys2Proof.Machine.execRdReserved off s
  | .wrReserved off v => Sys2Proof.Machine.execWrReserved off v s
  | .pinSfpHardReset => Sys2Proof.Machine.execPinSfpHardReset s
  | .pinDelaySettle => Sys2Proof.Machine.execPinDelaySettle s
  | .pinReserved w => Sys2Proof.Machine.execPinReserved w s
  | .rbPush q v => Sys2Proof.Machine.execRbPush q v s
  | .rbPop q => Sys2Proof.Machine.execRbPop q s
  | .rbCount q => Sys2Proof.Machine.execRbCount q s
  | .rbClear q => Sys2Proof.Machine.execRbClear q s
  | .frameCommonRead off om len => Sys2Proof.Machine.execFrameCommonRead off om len s
  | .frameCommonWrite off om data => Sys2Proof.Machine.execFrameCommonWrite off om data s
  | .frameReservedBsb4 off rwb om data => Sys2Proof.Machine.execFrameReservedBsb4 off rwb om data s
  | .frameReservedBsb8 off rwb om data => Sys2Proof.Machine.execFrameReservedBsb8 off rwb om data s
  | .frameReservedBsb12 off rwb om data => Sys2Proof.Machine.execFrameReservedBsb12 off rwb om data s
  | .frameReservedBsb16 off rwb om data => Sys2Proof.Machine.execFrameReservedBsb16 off rwb om data s
  | .frameReservedBsb20 off rwb om data => Sys2Proof.Machine.execFrameReservedBsb20 off rwb om data s
  | .frameReservedBsb24 off rwb om data => Sys2Proof.Machine.execFrameReservedBsb24 off rwb om data s
  | .frameReservedBsb28 off rwb om data => Sys2Proof.Machine.execFrameReservedBsb28 off rwb om data s
  | .frameSockRegRead n off om len => Sys2Proof.Machine.execFrameSockRegRead n off om len s
  | .frameSockRegWrite n off om data => Sys2Proof.Machine.execFrameSockRegWrite n off om data s
  | .frameTxBufRead n off om len => Sys2Proof.Machine.execFrameTxBufRead n off om len s
  | .frameTxBufWrite n off om data => Sys2Proof.Machine.execFrameTxBufWrite n off om data s
  | .frameRxBufRead n off om len => Sys2Proof.Machine.execFrameRxBufRead n off om len s
  | .frameRxBufWrite n off om data => Sys2Proof.Machine.execFrameRxBufWrite n off om data s
  | .cmdNone n => Sys2Proof.Machine.execCmdNone n s
  | .cmdOpen n => Sys2Proof.Machine.execCmdOpen n s
  | .cmdListen n => Sys2Proof.Machine.execCmdListen n s
  | .cmdConnect n => Sys2Proof.Machine.execCmdConnect n s
  | .cmdDiscon n => Sys2Proof.Machine.execCmdDiscon n s
  | .cmdClose n => Sys2Proof.Machine.execCmdClose n s
  | .cmdSend n => Sys2Proof.Machine.execCmdSend n s
  | .cmdSendMac n => Sys2Proof.Machine.execCmdSendMac n s
  | .cmdSendKeep n => Sys2Proof.Machine.execCmdSendKeep n s
  | .cmdRecv n => Sys2Proof.Machine.execCmdRecv n s
  | .cmdReserved n c => Sys2Proof.Machine.execCmdReserved n c s

end Sys2Proof.Machine
end

