-- ==== Sys2Proof/Machine/Moves.lean ====
section
/-!
DEFINITION. One move of one agent (R8): fetching the request where there is one, running it, and where a request
is placed for the next move to fetch.
-/

namespace Sys2Proof.Machine

/-- A HOST access: one of a width other than 8 bits is refused (R45), else its HREQ runs (R58). A pin operation
is no bus access, so its width is not looked at (log 16). -/
def runAccess (a : HostAccess) (s : State) : Result :=
  if a.req.getLsbD 17 = false ∧ a.width ≠ 8 then .next (hostWidth s) else exec (decodeHreq a.req) s

/-- The bytes of one assertion of SFP_SS: the instruction they decode to; and, where they are not one whole
frame (a header cut short, R131, or chained FDM frames, R137), their byte slots all the same (R133). -/
def runFrameBytes (bytes : List Byte) (s : State) : Result :=
  match decodeFrame bytes with
  | .ok i => exec i s
  | .error _ => .next (runFrame bytes s)

/-- NET takes the pending command of socket `n`; no step while the SFP settles (R155). -/
def runTake (n : SockIx) (s : State) : Result :=
  if s.sfp.resetting then .next s else exec (decodeSncmd n (s.sock n).crpend) s

/-- HOST's next request, in program order (R51); no step where it has none. -/
def runHost (s : State) : Result :=
  match s.hostq with
  | [] => .next s
  | a :: rest => runAccess a { s with hostq := rest }

/-- Agent `a` issues an RBOP at port `p` of ring `q`; no step where the port is not the agent's or does not issue
the operation (R71). -/
def runPort (a : Agent) (p : Port) (q : RingId) (op : BitVec 10) (s : State) : Result :=
  if portAllows a p q op then exec (decodeRbop q op) s else .next s

/-- The effects of one move, before the SFP looks at its line (R131). A move that is not enabled is no step. -/
def runMove (m : Move) (s : State) : Result :=
  match m with
  | .host => runHost s
  | .ring a p q op => runPort a p q op s
  | .frame bytes => runFrameBytes bytes s
  | .utxStart => .next (utxStart s)
  | .utxFinish => .next (utxFinish s)
  | .line d p s1 s2 => .next (lineFrame { d := d, p := some p, s1 := s1, s2 := s2 } s)
  | .spiDrain => .next (spiDrain s)
  | .spiComplete => .next (spiComplete s)
  | .sfpSettle => .next (sfpSettle s)
  | .netTake n => runTake n s
  | .netStatus n sr => .next (netStatus n sr s)
  | .netRx n i v => .next (netRx n i v s)
  | .blockReset => .next (blockReset s)

/-- The end of a step (R131), where there is a next state. -/
def finish : Result → Result
  | .next s => .next (endStep s)
  | .fault r => .fault r
  | .refused r => .refused r

/-- The first of the moves to come is made; with none to come no agent is scheduled and nothing changes (R52,
log 2). -/
def stepMove (s : State) : Result :=
  match s.sched with
  | [] => .next s
  | m :: rest => finish (runMove m { s with sched := rest })

/-- Place a request where the next step fetches it: HOST's program, a ring port that issues it, under the port's
agent (R71), the SFP's line, or `S[n].CR`
as NET takes it (with the SFP settled, or NET would not step, R155). -/
def placeRequest (r : Request) (s : State) : State :=
  match r with
  | .hreq w => { s with hostq := { width := 8, req := w } :: s.hostq, sched := .host :: s.sched }
  | .rbop q w => { s with sched := .ring (portAgent q (portOf w)) (portOf w) q w :: s.sched }
  | .frame bytes => { s with sched := .frame bytes :: s.sched }
  | .sncmd n c =>
    { (s.onSfp fun x => { x with resetting := false }).onSock n fun k => { k with crpend := c } with
      sched := .netTake n :: s.sched }

end Sys2Proof.Machine
end

