-- ==== Sys2Proof/Machine/Step.lean ====
section
/-!
DEFINITION. One step of the machine: one move of one agent.
-/

namespace Sys2Proof.Machine

/-- One step (R9, R52). -/
def step (s : State) : Host.Outcome State Fault Refusal := stepMove s

/-- `s` with a table row's word placed where `step` fetches its next request (log 3, log 4). -/
def State.withFetchWord (s : State) (nbits w : Nat) : State := placeRequest (tableRequest nbits w) s

end Sys2Proof.Machine
end

