-- ==== Sys2Proof/Safety.lean ====
section
/-!
DEFINITION. The terms claims are stated in: a clean run, which moves are enabled and which are fair, and the
invariants of the state.
-/

namespace Sys2Proof.Machine

/-- No fault and no refusal is recorded. The records only grow, so a state with empty records is one that no
step before it faulted or was refused (R13, R37). A claim about the hardware assumes it. -/
def State.clean (s : State) : Bool := decide (s.faults = []) && decide (s.refusals = [])

/-- The move has an effect of its agent's to make (the enabling conditions of R71, R104, R105, R128, R129, R155,
R168, R169). HOST, LINE, the SFP's line driven on its own, and the block reset may step at any time. -/
def enabled (s : State) : Move → Bool
  | .host =>
    match s.hostq with
    | [] => false
    | a :: _ => !(decide (a.req = pinWord 1) && s.sfp.resetting)
  | .ring a p q op => portAllows a p q op
  | .frame _ | .line _ _ _ _ | .blockReset => true
  | .utxStart => s.uart.ctrl.txen && decide (s.uart.txsh = .idle) && decide (0 < s.utx.count)
  | .utxFinish => decide (s.uart.txsh ≠ .idle)
  | .spiDrain => decide (s.spi.drain = .active) && decide (s.spi.sh = .idle)
  | .spiComplete => decide (s.spi.sh ≠ .idle)
  | .sfpSettle => s.sfp.resetting
  | .netTake n => !s.sfp.resetting && decide ((s.sock n).crpend ≠ 0)
  | .netStatus n sr => !s.sfp.resetting && mayBecome (s.sock n).sr sr
  | .netRx n i _ => !s.sfp.resetting && carriesData (s.sock n).sr && decide (i < cellsOf (s.sock n).rxsz)

/-- The weakly fair step kinds (R193); NET's taking is one kind for each socket (DEDUCED, log 23). -/
def weaklyFair : Move → Bool
  | .utxStart | .utxFinish | .spiComplete | .spiDrain | .sfpSettle | .netTake _ => true
  | .host | .ring _ _ _ _ | .frame _ | .line _ _ _ _ | .netStatus _ _ | .netRx _ _ _ | .blockReset => false

/-- The moves a run of the whole block makes; a bare operation at a port and a frame sent as one move are no part
of it (log 8, log 9). -/
def blockMove : Move → Bool
  | .ring _ _ _ _ | .frame _ => false
  | .host | .utxStart | .utxFinish | .line _ _ _ _ | .spiDrain | .spiComplete | .sfpSettle | .netTake _
  | .netStatus _ _ | .netRx _ _ _ | .blockReset => true

/-! ### Infinite runs (R52, R193) -/

/-- An infinite run: the states, the move that makes each step, and the requests that join the end of HOST's
program before it. -/
structure Run where
  state : Nat → State
  move : Nat → Move
  feed : Nat → List HostAccess

/-- What step `k` starts from: the state, the requests that joined HOST's program (in program order, R51), and the
move scheduled. -/
def Run.before (r : Run) (k : Nat) : State :=
  { r.state k with hostq := (r.state k).hostq ++ r.feed k, sched := [r.move k] }

/-- A run is admissible when each state is the step of the one before, and every weakly fair step that is enabled from
some point on is taken at or after it (R193). The other moves carry no such duty. -/
structure Run.Admissible (r : Run) : Prop where
  steps : ∀ k, step (r.before k) = .next (r.state (k + 1))
  fair : ∀ m, weaklyFair m = true → ∀ k, (∀ j, k ≤ j → enabled (r.state j) m = true) → ∃ j, k ≤ j ∧ r.move j = m

/-- From step `k` on the run is one of the whole block, and HOST only reads and waits: no request it issues is a write,
a hard reset or a reserved pin operation. -/
def Run.ReadsOnlyFrom (r : Run) (k : Nat) : Prop :=
  ∀ j, k ≤ j → blockMove (r.move j) = true ∧
    ∀ a ∈ (r.before j).hostq, (a.req.getLsbD 17 = false ∧ a.req.getLsbD 16 = false) ∨ a.req = pinWord 1

/-! ### Rings -/

/-- A ring of capacity `cap` is as R17 and R18 say. -/
structure Ring.Ok (r : Ring) (cap : Nat) : Prop where
  cap_eq : r.cap = cap
  cap_pos : 0 < cap
  buf_len : r.buf.length = cap
  tail_lt : r.tail < cap
  count_le : r.count ≤ cap
  head_eq : r.head = (r.tail + r.count) % cap

/-- The bytes a ring holds, oldest first: its live window (R78). -/
def Ring.contents (r : Ring) : List Byte :=
  (List.range r.count).map fun k => r.buf.getD ((r.tail + k) % r.cap) 0

/-- Every ring is as R17 and R18 say, with the capacity its parameter gives (R80). -/
structure RingsOk (s : State) : Prop where
  urx : s.urx.Ok s.cfg.capUrx
  utx : s.utx.Ok s.cfg.capUtx
  srx : s.srx.Ok s.cfg.capSrx
  stx : s.stx.Ok s.cfg.capStx

/-! ### UART -/

/-- The divisor register holds the divisor of the baud code and U2X (R22), for legal parameters. -/
structure DivisorOk (s : State) : Prop where
  cfg_wf : s.cfg.wf = true
  div_eq : (s.uart.div.toNat : Int) = divisor s.cfg.fClk (baudTab s.uart.baud) s.uart.ctrl.u2x

/-! ### SPI master -/

/-- A busy master is enabled (R118), AUTO is true exactly while it is busy (R122), a drain runs in buffered mode
(R127), and the selected line exists (R29). -/
structure SpiOk (s : State) : Prop where
  lines : 0 < s.cfg.nSs
  busy_enabled : s.spi.busy = true → s.spi.ctrl.spe = true
  auto_eq : s.spi.auto = s.spi.busy
  drain_buffered : s.spi.drain = .active → s.spi.ctrl.buf = true
  ssidx_lt : s.spi.ssidx.toNat < s.cfg.nSs

/-! ### SFP -/

/-- A buffer's cells: canonical, and each within the buffer (R36). -/
def Memory.Within (m : Memory) (sz : Byte) : Prop := Memory.wf m = true ∧ ∀ c ∈ m, c.1 < cellsOf sz

/-- A socket: sizes are legal (R151), a pending command is one of the nine (R150), the cells lie in their
buffers (R36). -/
structure Socket.Ok (k : Socket) : Prop where
  rxsz_legal : legalSize k.rxsz = true
  txsz_legal : legalSize k.txsz = true
  crpend_known : k.crpend = 0 ∨ k.crpend ∈ commandCodes
  txbuf_within : Memory.Within k.txbuf k.txsz
  rxbuf_within : Memory.Within k.rxbuf k.rxsz

/-- The parser and the registers: CSPREV is the level of the line (R34), a frame is open only while the line is
asserted (R131), a data phase has a block select that is not reserved (R134) and, in FDM, bytes left (R137),
RST is 1 only while the SFP settles (R147). -/
structure SfpOk (s : State) : Prop where
  csPrev_eq : s.sfp.csPrev = cs s s.cfg.sfpSs
  open_asserted : s.sfp.phase ≠ .idle → s.sfp.csPrev = true
  data_bsb : s.sfp.phase = .data → reservedBsb (ctlBsb s.sfp.ctl) = false
  data_left : s.sfp.phase = .data → ∀ k, (decodeOm s.sfp.ctl).len = some k → s.sfp.n < k
  rst_settling : s.sfp.regs.mr.getLsbD 7 = true → s.sfp.resetting = true
  socks : ∀ n, (s.sock n).Ok

/-! ### Reading the SFP's address space without a step -/

/-- What a read slot at `(b, off)` returns where the spec fixes the byte (R138, R147, R148, R152); `none` at an
unnamed register, in a buffer of size 0 and at an unwritten cell. -/
def peek (s : State) (b : Bsb) (off : Word16) : Option Byte :=
  match (bsbKind b).toNat with
  | 0 => if bsbSock b = 0 then (commonReg off).map (commonValue s.sfp.regs) else none
  | 1 => (sockReg off).map (sockValue (s.sock (bsbSock b)))
  | 2 =>
    if (s.sock (bsbSock b)).txsz = 0 then none
    else (s.sock (bsbSock b)).txbuf.read (cellIndex off (s.sock (bsbSock b)).txsz)
  | _ =>
    if (s.sock (bsbSock b)).rxsz = 0 then none
    else (s.sock (bsbSock b)).rxbuf.read (cellIndex off (s.sock (bsbSock b)).rxsz)

/-- A frame can begin: the SFP is settled (R133), the link mode is one it accepts (R132), and its line is
released, so that the frame's own assertion is the one it sees (R131). -/
structure FrameReady (s : State) : Prop where
  settled : s.sfp.resetting = false
  link : linkOk s = true
  seen_released : s.sfp.csPrev = false
  released : cs s s.cfg.sfpSs = false

/-- Neither direction's sizes sum to more than 16 (R151). -/
structure TotalsOk (s : State) : Prop where
  rx : rxTotal s ≤ 16
  tx : txTotal s ≤ 16

/-- What a frame may reach outside the SFP's registers: the parser's latches, the response, the draws. The
frame's end leaves the line released and the parser idle. -/
structure FrameLeaves (s t : State) : Prop where
  rest : t = { s with sfp := t.sfp, responses := t.responses, draws := t.draws, faults := t.faults,
                      refusals := t.refusals }
  idle : t.sfp.phase = .idle
  csPrev : t.sfp.csPrev = false
  miso : ∃ bytes, t.responses = s.responses ++ [.miso bytes]

/-! ### Kinds of instruction -/

/-- A HOST access to the register window: KIND = 0 (R58). -/
def isAccess : Instr → Bool
  | .rdUartData | .wrUartData _ | .rdUartStatus | .wrUartStatus _ | .rdUartCtrl
  | .wrUartCtrl _ | .rdUartFrame | .wrUartFrame _ | .rdUartBaud | .wrUartBaud _ | .rdUartDivl
  | .wrUartDivl _ | .rdUartDivh | .wrUartDivh _ | .rdUartRxcnt | .wrUartRxcnt _ | .rdUartTxcnt
  | .wrUartTxcnt _ | .rdUartErr | .wrUartErr _ | .rdUartCmd | .wrUartCmd _ | .rdSpiData
  | .wrSpiData _ | .rdSpiStatus | .wrSpiStatus _ | .rdSpiCtrl | .wrSpiCtrl _ | .rdSpiClksel
  | .wrSpiClksel _ | .rdSpiSs | .wrSpiSs _ | .rdSpiRxcnt | .wrSpiRxcnt _ | .rdSpiTxcnt
  | .wrSpiTxcnt _ | .rdSpiCmd | .wrSpiCmd _ | .rdReserved _ | .wrReserved _ _ => true
  | .pinSfpHardReset | .pinDelaySettle | .pinReserved _ | .rbPush _ _ | .rbPop _ | .rbCount _
  | .rbClear _ | .frameCommonRead _ _ _ | .frameCommonWrite _ _ _ | .frameReservedBsb4 _ _ _ _
  | .frameReservedBsb8 _ _ _ _ | .frameReservedBsb12 _ _ _ _ | .frameReservedBsb16 _ _ _ _
  | .frameReservedBsb20 _ _ _ _ | .frameReservedBsb24 _ _ _ _ | .frameReservedBsb28 _ _ _ _
  | .frameSockRegRead _ _ _ _ | .frameSockRegWrite _ _ _ _ | .frameTxBufRead _ _ _ _
  | .frameTxBufWrite _ _ _ _ | .frameRxBufRead _ _ _ _ | .frameRxBufWrite _ _ _ _ | .cmdNone _
  | .cmdOpen _ | .cmdListen _ | .cmdConnect _ | .cmdDiscon _ | .cmdClose _ | .cmdSend _
  | .cmdSendMac _ | .cmdSendKeep _ | .cmdRecv _ | .cmdReserved _ _ => false

end Sys2Proof.Machine
end

