-- ==== Sys2Proof/Certificates/Slice0/Obligations.lean ====
section
/-!
DEFINITION. The statements for the provers. OBLIGATIONS.json lists them with the rules they cite.
-/

open Sys2Proof Sys2Proof.Machine

/-! ### Encoding -/

/-- Decoding an encoded well-formed instruction gives it back (R57 to R66). -/
def Obligations.DecodeOfEncodeIsIdentity : Prop :=
  ∀ i : Instr, i.wf = true → decode (encode i) = .ok i

/-- Whatever the decoder accepts is a well-formed instruction: a term for a reserved offset, pin request or command
holds only a reserved code, and an FDM frame holds no more than its length (R48, R59, R165; that an over-long FDM
frame is rejected, though its slots run, is the model's choice, log 29). -/
def Obligations.DecodedInstructionsAreWellFormed : Prop :=
  ∀ (r : Request) (i : Instr), decode r = .ok i → i.wf = true

/-- An HREQ loses no bit in decoding but DATA on a read, which the decoder ignores (R58). -/
def Obligations.HreqKeepsEveryBitButReadData : Prop :=
  ∀ w : BitVec 18, encode (decodeHreq w) =
    .hreq (if w.getLsbD 17 = false ∧ w.getLsbD 16 = false then w.extractLsb' 8 10 ++ 0#8 else w)

/-- Words written out from the spec's encodings decode to what they stand for (R58, R59, R61, R63, R66). -/
def Obligations.WrittenWordsDecode : Prop :=
  decode (.hreq 0x10048) = .ok (.wrUartData 0x48) ∧
  decode (.hreq 0x00100) = .ok .rdUartStatus ∧
  decode (.hreq 0x11704) = .ok (.wrSpiCmd 0x04) ∧
  decode (.hreq 0x20000) = .ok .pinSfpHardReset ∧
  decode (.hreq 0x20001) = .ok .pinDelaySettle ∧
  decode (.rbop .srx 0x155) = .ok (.rbPop .srx) ∧
  decode (.frame [0x00, 0x09, 0x04, 0x00, 0x08, 0xDC]) =
    .ok (.frameCommonWrite 0x0009 .vdm [0x00, 0x08, 0xDC]) ∧
  decode (.frame [0x00, 0x03, 0x09, 0x00]) = .ok (.frameSockRegRead 0 0x0003 .fdm1 1) ∧
  decode (.sncmd 5 0x10) = .ok (.cmdClose 5)

/-! ### The step -/

/-- A step runs the decoded request: HOST's next HREQ (R51), an RBOP at a ring port where the port is the agent's and
issues it (R71), a frame on the SFP's line, the command NET takes (R155); around it, the request and the move are
consumed and the SFP looks at its line (R131). An RBOP at a port that is another agent's, or does not issue it, is no
step of the ring. The model's choices in it: an RBOP and a whole frame as one move each (DESIGN CHOICE, logs 8 and 9),
and a pin operation run whatever the access width (DEDUCED, log 16). -/
def Obligations.StepRunsTheDecodedRequest : Prop :=
  ∀ (s : State) (rest : List Move),
    (∀ a q, s.sched = .host :: rest → s.hostq = a :: q → (a.req.getLsbD 17 = true ∨ a.width = 8) →
      step s = finish (exec (decodeHreq a.req) { s with hostq := q, sched := rest })) ∧
    (∀ a p q op, s.sched = .ring a p q op :: rest →
      let k := op.extractLsb' 8 2
      let agent := if p = .control then Agent.host else
        match q, p with
        | .urx, .producer => .urx
        | .utx, .consumer => .utx
        | .srx, .producer => .spi
        | .stx, .consumer => .spi
        | _, _ => .host
      let issues := k = 2 ∨ (k = 0 ∧ p = .producer) ∨ (k = 1 ∧ p = .consumer) ∨ (k = 3 ∧ p = .control)
      (a = agent → issues → step s = finish (exec (decodeRbop q op) { s with sched := rest })) ∧
      (¬(a = agent ∧ issues) → step s = finish (.next { s with sched := rest }))) ∧
    (∀ bytes i, s.sched = .frame bytes :: rest → decodeFrame bytes = .ok i →
      step s = finish (exec i { s with sched := rest })) ∧
    (∀ n, s.sched = .netTake n :: rest → s.sfp.resetting = false →
      step s = finish (exec (decodeSncmd n (s.sock n).crpend) { s with sched := rest }))

/-- Every step answers a next state: no host access is aborted, faulted or retried (R171), and a model outcome is a
record, not a stop (R13; the model's reading, log 1). The records only grow (R37), and no step changes a parameter or
a ring's capacity (R6, R80). -/
def Obligations.StepAnswersAndKeepsTheRecords : Prop :=
  ∀ s : State, ∃ t, step s = .next t ∧ s.faults ⊆ t.faults ∧ s.refusals ⊆ t.refusals ∧ t.cfg = s.cfg ∧
    ∀ q, (t.ring q).cap = (s.ring q).cap

/-- A host access of a width other than 8 bits is refused HOST_WIDTH, and a reserved pin request HOST_PINOP; neither
changes anything else (R45, R59, R68). -/
def Obligations.RefusedHostRequestsChangeNothing : Prop :=
  (∀ (a : HostAccess) (s : State), a.req.getLsbD 17 = false → a.width ≠ 8 →
    ∃ t, runAccess a s = .next t ∧ t = { s with refusals := t.refusals } ∧
      ∀ r, r ∈ t.refusals ↔ r = .hostWidth ∨ r ∈ s.refusals) ∧
  ∀ (w : BitVec 17) (s : State), ∃ t, exec (.pinReserved w) s = .next t ∧
    t = { s with refusals := t.refusals } ∧ ∀ r, r ∈ t.refusals ↔ r = .hostPinop ∨ r ∈ s.refusals

/-! ### Invariants -/

/-- Every step keeps each ring as R17 and R18 say. -/
def Obligations.StepKeepsRings : Prop :=
  ∀ s t : State, RingsOk s → step s = .next t → RingsOk t

/-- Every step keeps the divisor register equal to the divisor of the baud code and U2X (R22). -/
def Obligations.StepKeepsDivisor : Prop :=
  ∀ s t : State, DivisorOk s → step s = .next t → DivisorOk t

/-- Every step keeps the SPI master's sequencing: busy implies enabled, AUTO exactly while busy, a drain in
buffered mode, an existing line selected (R118, R122, R127, R29). -/
def Obligations.StepKeepsSpiSequencing : Prop :=
  ∀ s t : State, SpiOk s → step s = .next t → SpiOk t

/-- Every step keeps the SFP's invariant: CSPREV, the open frame, RST, legal sizes, known commands, canonical
buffers (R34, R131, R134, R137, R147, R150, R151). -/
def Obligations.StepKeepsSfp : Prop :=
  ∀ s t : State, SfpOk s → step s = .next t → SfpOk t

/-- The four invariants hold at the launch with any legal parameters, and at `State.reset` (R38). -/
def Obligations.LaunchHasTheInvariants : Prop :=
  (∀ c : Config, c.wf = true → RingsOk (.launch c) ∧ DivisorOk (.launch c) ∧ SpiOk (.launch c) ∧
    SfpOk (.launch c) ∧ (State.launch c).clean = true) ∧
  RingsOk .reset ∧ DivisorOk .reset ∧ SpiOk .reset ∧ SfpOk .reset

/-! ### Reset -/

/-- Right after a block reset, with F_CLK at least 153600 (R6), every register reads the value of R188, a DATA read sets
RXUF, and the interrupt lines are false. -/
def Obligations.RegistersAfterBlockReset : Prop :=
  ∀ s : State, 153600 ≤ s.cfg.fClk →
    (∀ i v, (i, v) ∈ ([(.rdUartStatus, 0x00), (.rdUartCtrl, 0x00), (.rdUartFrame, 0x03), (.rdUartBaud, 0x02),
        (.rdUartDivl, BitVec.ofNat 8 (s.cfg.fClk / 153600 - 1)),
        (.rdUartDivh, BitVec.ofNat 8 ((s.cfg.fClk / 153600 - 1) / 256)),
        (.rdUartRxcnt, 0x00), (.rdUartTxcnt, 0x00), (.rdUartErr, 0x00), (.rdUartCmd, 0x00),
        (.rdSpiStatus, 0x00), (.rdSpiCtrl, 0x00), (.rdSpiClksel, 0x00), (.rdSpiSs, 0x00),
        (.rdSpiRxcnt, 0x00), (.rdSpiTxcnt, 0x00), (.rdSpiCmd, 0x00)] : List (Instr × Byte)) →
      exec i (blockReset s) =
        .next { blockReset s with responses := s.responses ++ [.hostRead v] }) ∧
    (∀ off, exec (.rdReserved off) (blockReset s) =
      .next { blockReset s with responses := s.responses ++ [.hostRead 0x00] }) ∧
    (∃ t, exec .rdUartData (blockReset s) = .next t ∧ t.responses = s.responses ++ [.hostRead 0x00] ∧
      t.uart.flags.rxuf = true) ∧
    (∃ t, exec .rdSpiData (blockReset s) = .next t ∧ t.responses = s.responses ++ [.hostRead 0x00] ∧
      t.spi.flags.rxuf = true) ∧
    irqUart (blockReset s) = false ∧ irqSpi (blockReset s) = false

/-- The block reset does not reset the SFP and does not clear the records; it releases every line and ends an open
frame, and a frame or byte in flight emits no event (R187). -/
def Obligations.BlockResetKeepsTheSfp : Prop :=
  ∀ (s : State) (rest : List Move), s.sched = .blockReset :: rest →
    ∃ t, step s = .next t ∧ t.sfp.regs = s.sfp.regs ∧ t.sfp.resetting = s.sfp.resetting ∧
      t.faults = s.faults ∧ t.refusals = s.refusals ∧ t.trace = s.trace ∧
      (∀ i, cs t i = false) ∧ (s.sfp.csPrev = true → t.sfp.phase = .idle) ∧
      t.uart.txsh = .idle ∧ t.spi.sh = .idle ∧ t.spi.drain = .idle ∧
      ∀ q, (t.ring q).count = 0 ∧ (t.ring q).head = 0 ∧ (t.ring q).tail = 0

/-! ### Ring ports -/

/-- PUSH stores at HEAD unless full, POP takes the byte at TAIL unless empty, COUNT answers and changes nothing, CLEAR
resets HEAD, TAIL and COUNT and erases nothing; each with its RBOP word (R74 to R77). -/
def Obligations.RingOperationResults : Prop :=
  ∀ (q : RingId) (v : Byte) (s : State),
    decodeRbop q (rbopWord 0 v) = .rbPush q v ∧ decodeRbop q (rbopWord 1 v) = .rbPop q ∧
    decodeRbop q (rbopWord 2 v) = .rbCount q ∧ decodeRbop q (rbopWord 3 v) = .rbClear q ∧
    exec (.rbPush q v) s = .next
      (if (s.ring q).count = (s.ring q).cap then { s with responses := s.responses ++ [.accept false] }
       else { s.setRing q { s.ring q with
                buf := (s.ring q).buf.set (s.ring q).head v,
                head := ((s.ring q).head + 1) % (s.ring q).cap,
                count := (s.ring q).count + 1 } with
              responses := s.responses ++ [.accept true] }) ∧
    exec (.rbPop q) s = .next
      (if (s.ring q).count = 0 then { s with responses := s.responses ++ [.popped false 0x00] }
       else { s.setRing q { s.ring q with
                tail := ((s.ring q).tail + 1) % (s.ring q).cap,
                count := (s.ring q).count - 1 } with
              responses := s.responses ++ [.popped true ((s.ring q).buf.getD (s.ring q).tail 0)] }) ∧
    exec (.rbCount q) s = .next { s with responses := s.responses ++ [.count (BitVec.ofNat 8 (s.ring q).count)] } ∧
    exec (.rbClear q) s = .next (s.setRing q { s.ring q with head := 0, tail := 0, count := 0 })

/-- A ring is a FIFO queue of at most CAP bytes: over the bytes it holds, oldest first, PUSH appends unless full,
POP takes the first, CLEAR empties, and every operation keeps the ring as R18 says (R79). -/
def Obligations.RingRefinesFifoQueue : Prop :=
  ∀ (r : Ring) (cap : Nat), r.Ok cap →
    r.contents.length = r.count ∧
    (∀ v, (r.push v).2.Ok cap ∧
      (r.contents.length < cap → (r.push v).1 = true ∧ (r.push v).2.contents = r.contents ++ [v]) ∧
      (r.contents.length = cap → r.push v = (false, r))) ∧
    (r.pop.2.Ok cap ∧ (r.contents = [] → r.pop = (none, r)) ∧
      ∀ b bs, r.contents = b :: bs → r.pop.1 = some b ∧ r.pop.2.contents = bs) ∧
    (r.clear.Ok cap ∧ r.clear.contents = [])

/-- Between HOST's accesses an engine step never shrinks a receive ring's count and never grows a transmit ring's
(R54). -/
def Obligations.EnginesFillReceiveAndDrainTransmit : Prop :=
  ∀ (m : Move) (s t : State) (rest : List Move), blockMove m = true → m ≠ .host → m ≠ .blockReset →
    s.sched = m :: rest → step s = .next t →
    s.urx.count ≤ t.urx.count ∧ s.srx.count ≤ t.srx.count ∧
    t.utx.count ≤ s.utx.count ∧ t.stx.count ≤ s.stx.count

/-! ### UART, HOST side -/

/-- `WR UART_DATA, v`: the byte joins UTX; a full UTX is unchanged, the byte is dropped and TXOVF is set (R84). -/
def Obligations.UartSendQueuesOrFlags : Prop :=
  ∀ (v : Byte) (s : State), decodeHreq (hreqWord false true 0x00 v) = .wrUartData v ∧
    exec (.wrUartData v) s = .next
      (if s.utx.count = s.utx.cap then
         { s with uart := { s.uart with flags := { s.uart.flags with txovf := true } } }
       else { s with utx := { s.utx with
                buf := s.utx.buf.set s.utx.head v,
                head := (s.utx.head + 1) % s.utx.cap,
                count := s.utx.count + 1 } })

/-- `RD UART_DATA` and `RD SPI_DATA`: the oldest byte of URX or SRX leaves the ring and is returned; an empty ring
returns 0x00 and sets the unit's RXUF (R85, R114). -/
def Obligations.DataReadsPopOrFlag : Prop :=
  ∀ (d : Byte) (s : State),
    decodeHreq (hreqWord false false 0x00 d) = .rdUartData ∧
    decodeHreq (hreqWord false false 0x10 d) = .rdSpiData ∧
    exec .rdUartData s = .next
      (if s.urx.count = 0 then
         { s with uart := { s.uart with flags := { s.uart.flags with rxuf := true } },
                  responses := s.responses ++ [.hostRead 0x00] }
       else { s with urx := { s.urx with tail := (s.urx.tail + 1) % s.urx.cap, count := s.urx.count - 1 },
                     responses := s.responses ++ [.hostRead (s.urx.buf.getD s.urx.tail 0)] }) ∧
    exec .rdSpiData s = .next
      (if s.srx.count = 0 then
         { s with spi := { s.spi with flags := { s.spi.flags with rxuf := true } },
                  responses := s.responses ++ [.hostRead 0x00] }
       else { s with srx := { s.srx with tail := (s.srx.tail + 1) % s.srx.cap, count := s.srx.count - 1 },
                     responses := s.responses ++ [.hostRead (s.srx.buf.getD s.srx.tail 0)] })

/-- The UART's status, control, frame, baud and error registers read their fields, bit by bit, and change nothing
(R86, R88, R90, R92, R99). -/
def Obligations.UartRegistersReadTheirFields : Prop :=
  ∀ (x : Byte) (s : State),
    (∀ p ∈ [((0x01 : Byte), Instr.rdUartStatus), (0x02, .rdUartCtrl), (0x03, .rdUartFrame), (0x04, .rdUartBaud),
      (0x09, .rdUartErr)], decodeHreq (hreqWord false false p.1 x) = p.2) ∧
    ∃ st ct fr bd er : Byte,
    (exec .rdUartStatus s = .next { s with responses := s.responses ++ [.hostRead st] } ∧
      st.getLsbD 0 = decide (s.urx.count ≠ 0) ∧
      st.getLsbD 1 = (decide (s.utx.count ≠ 0) || decide (s.uart.txsh ≠ .idle)) ∧
      st.getLsbD 2 = s.uart.flags.txdone ∧ st.getLsbD 3 = s.uart.flags.txc ∧
      st.getLsbD 4 = s.uart.flags.txovf ∧ st.getLsbD 5 = s.uart.flags.rxuf ∧
      st.getLsbD 6 = false ∧ st.getLsbD 7 = false) ∧
    (exec .rdUartCtrl s = .next { s with responses := s.responses ++ [.hostRead ct] } ∧
      ct.getLsbD 0 = s.uart.ctrl.rxen ∧ ct.getLsbD 1 = s.uart.ctrl.txen ∧
      ct.getLsbD 2 = s.uart.ctrl.rxie ∧ ct.getLsbD 3 = s.uart.ctrl.txie ∧
      ct.getLsbD 4 = s.uart.ctrl.u2x ∧ ct.getLsbD 5 = s.uart.ctrl.txmode ∧
      ct.getLsbD 6 = s.uart.ctrl.loop ∧ ct.getLsbD 7 = false) ∧
    (exec .rdUartFrame s = .next { s with responses := s.responses ++ [.hostRead fr] } ∧
      fr.extractLsb' 0 2 = s.uart.frame.chsz ∧ fr.getLsbD 2 = s.uart.frame.sbs ∧
      (fr.extractLsb' 3 2 = 0 ↔ s.uart.frame.par = .absent) ∧
      (fr.extractLsb' 3 2 = 1 ↔ s.uart.frame.par = .even) ∧
      (fr.extractLsb' 3 2 = 2 ↔ s.uart.frame.par = .odd) ∧ fr.extractLsb' 5 3 = 0) ∧
    (exec .rdUartBaud s = .next { s with responses := s.responses ++ [.hostRead bd] } ∧
      bd.toNat = s.uart.baud.val) ∧
    (exec .rdUartErr s = .next { s with responses := s.responses ++ [.hostRead er] } ∧
      er.getLsbD 0 = s.uart.err.fe ∧ er.getLsbD 1 = s.uart.err.pe ∧ er.getLsbD 2 = s.uart.err.cfgerr ∧
      er.extractLsb' 3 5 = 0)

/-- DIVH and DIVL together read the divisor, and the divisor is that of the baud code and U2X (R94, R95, R42, R22). -/
def Obligations.DivisorReadsJoin : Prop :=
  ∀ (x : Byte) (s : State),
    decodeHreq (hreqWord false false 0x05 x) = .rdUartDivl ∧ decodeHreq (hreqWord false false 0x06 x) = .rdUartDivh ∧
    ∃ hi lo : Byte,
      exec .rdUartDivl s = .next { s with responses := s.responses ++ [.hostRead lo] } ∧
      exec .rdUartDivh s = .next { s with responses := s.responses ++ [.hostRead hi] } ∧
      (hi ++ lo : BitVec 16) = s.uart.div ∧
      (DivisorOk s →
        ((hi ++ lo : BitVec 16).toNat : Int) = divisor s.cfg.fClk (baudTab s.uart.baud) s.uart.ctrl.u2x)

/-- The four count registers read the number of bytes in their rings, which always fits them (R97, R98, R123, R124,
R25, R31). -/
def Obligations.CountRegistersReadTheCounts : Prop :=
  ∀ (x : Byte) (s : State),
    (∀ p ∈ [((0x07 : Byte), Instr.rdUartRxcnt), (0x08, .rdUartTxcnt), (0x15, .rdSpiRxcnt), (0x16, .rdSpiTxcnt)],
      decodeHreq (hreqWord false false p.1 x) = p.2) ∧
    ∃ a b c d : Byte,
      exec .rdUartRxcnt s = .next { s with responses := s.responses ++ [.hostRead a] } ∧
      exec .rdUartTxcnt s = .next { s with responses := s.responses ++ [.hostRead b] } ∧
      exec .rdSpiRxcnt s = .next { s with responses := s.responses ++ [.hostRead c] } ∧
      exec .rdSpiTxcnt s = .next { s with responses := s.responses ++ [.hostRead d] } ∧
      (s.cfg.wf = true → RingsOk s →
        a.toNat = s.urx.count ∧ b.toNat = s.utx.count ∧ c.toNat = s.srx.count ∧ d.toNat = s.stx.count)

/-- The command registers and every reserved offset read 0x00, and writes of the read-only registers and of reserved
offsets are ignored; nothing else changes (R96, R101, R125, R126; of R48, its first sentence). -/
def Obligations.ConstantReadsAndIgnoredWrites : Prop :=
  ∀ (v off : Byte) (s : State),
    (∀ p ∈ [((0x0A : Byte), Instr.rdUartCmd), (0x17, .rdSpiCmd)], decodeHreq (hreqWord false false p.1 v) = p.2) ∧
    (∀ p ∈ [((0x05 : Byte), Instr.wrUartDivl v), (0x06, .wrUartDivh v), (0x07, .wrUartRxcnt v),
        (0x08, .wrUartTxcnt v), (0x15, .wrSpiRxcnt v), (0x16, .wrSpiTxcnt v)],
      decodeHreq (hreqWord false true p.1 v) = p.2) ∧
    (∀ i ∈ [Instr.rdUartCmd, .rdSpiCmd, .rdReserved off],
      exec i s = .next { s with responses := s.responses ++ [.hostRead 0x00] }) ∧
    (∀ i ∈ [Instr.wrUartDivl v, .wrUartDivh v, .wrUartRxcnt v, .wrUartTxcnt v, .wrSpiRxcnt v, .wrSpiTxcnt v,
        .wrReserved off v], exec i s = .next s)

/-- Writes of the status and error registers clear exactly the flags written with 1 (R87, R100, R116). -/
def Obligations.WriteOneClearsFlags : Prop :=
  ∀ (v : Byte) (s : State),
    (∀ p ∈ [((0x01 : Byte), Instr.wrUartStatus v), (0x09, .wrUartErr v), (0x11, .wrSpiStatus v)],
      decodeHreq (hreqWord false true p.1 v) = p.2) ∧
    exec (.wrUartStatus v) s = .next { s with uart := { s.uart with flags :=
      { txdone := s.uart.flags.txdone && !v.getLsbD 2, txc := s.uart.flags.txc && !v.getLsbD 3,
        txovf := s.uart.flags.txovf && !v.getLsbD 4, rxuf := s.uart.flags.rxuf && !v.getLsbD 5 } } } ∧
    exec (.wrUartErr v) s = .next { s with uart := { s.uart with err :=
      { fe := s.uart.err.fe && !v.getLsbD 0, pe := s.uart.err.pe && !v.getLsbD 1,
        cfgerr := s.uart.err.cfgerr && !v.getLsbD 2 } } } ∧
    exec (.wrSpiStatus v) s = .next { s with spi := { s.spi with flags :=
      { tc := s.spi.flags.tc && !v.getLsbD 2, wcol := s.spi.flags.wcol && !v.getLsbD 3,
        txovf := s.spi.flags.txovf && !v.getLsbD 4, rxuf := s.spi.flags.rxuf && !v.getLsbD 5,
        cfgerr := s.spi.flags.cfgerr && !v.getLsbD 6 } } }

/-- `WR UART_CTRL, v`: the enables always follow bits 3:0; a change of U2X, TXMODE or LOOP is taken only while both
old enables are 0 and the divisor stays valid, and is otherwise ignored with CFGERR (R89). -/
def Obligations.UartCtrlWriteEffect : Prop :=
  ∀ (v : Byte) (s : State),
    let kept : UartCtrl :=
      { s.uart.ctrl with rxen := v.getLsbD 0, txen := v.getLsbD 1, rxie := v.getLsbD 2, txie := v.getLsbD 3 }
    let same := v.getLsbD 4 = s.uart.ctrl.u2x ∧ v.getLsbD 5 = s.uart.ctrl.txmode ∧
      v.getLsbD 6 = s.uart.ctrl.loop
    let d := divisor s.cfg.fClk (baudTab s.uart.baud) (v.getLsbD 4)
    let ignored := (s.uart.ctrl.rxen = true ∨ s.uart.ctrl.txen = true) ∨
      (v.getLsbD 4 ≠ s.uart.ctrl.u2x ∧ ¬(0 ≤ d ∧ d ≤ 0xFFFF))
    decodeHreq (hreqWord false true 0x02 v) = .wrUartCtrl v ∧
    (same → exec (.wrUartCtrl v) s = .next { s with uart := { s.uart with ctrl := kept } }) ∧
    (¬same → ignored → exec (.wrUartCtrl v) s =
      .next { s with uart := { s.uart with ctrl := kept, err := { s.uart.err with cfgerr := true } } }) ∧
    (¬same → ¬ignored → exec (.wrUartCtrl v) s =
      .next { s with uart := { s.uart with
        ctrl := { rxen := v.getLsbD 0, txen := v.getLsbD 1, rxie := v.getLsbD 2, txie := v.getLsbD 3,
                  u2x := v.getLsbD 4, txmode := v.getLsbD 5, loop := v.getLsbD 6 },
        div := BitVec.ofInt 16 d } })

/-- `WR UART_FRAME, v`: while disabled the five bits are stored and read back, except the reserved parity code,
which is ignored with CFGERR; while enabled a change is ignored with CFGERR (R91). -/
def Obligations.UartFrameWriteEffect : Prop :=
  ∀ (v : Byte) (s : State),
    let flagged : State := { s with uart := { s.uart with err := { s.uart.err with cfgerr := true } } }
    decodeHreq (hreqWord false true 0x03 v) = .wrUartFrame v ∧
    (s.uart.enabled = true → ∃ fr : Byte,
      exec .rdUartFrame s = .next { s with responses := s.responses ++ [.hostRead fr] } ∧
      exec (.wrUartFrame v) s = .next (if v.extractLsb' 0 5 = fr.extractLsb' 0 5 then s else flagged)) ∧
    (s.uart.enabled = false → v.extractLsb' 3 2 = 3 → exec (.wrUartFrame v) s = .next flagged) ∧
    (s.uart.enabled = false → v.extractLsb' 3 2 ≠ 3 → ∃ f,
      exec (.wrUartFrame v) s = .next { s with uart := { s.uart with frame := f } } ∧
      exec .rdUartFrame { s with uart := { s.uart with frame := f } } =
        .next { s with uart := { s.uart with frame := f },
                       responses := s.responses ++ [.hostRead (v &&& 0x1F)] })

/-- `WR UART_BAUD, v`: while disabled a code of the table with a valid divisor is taken and DIV with it; a reserved
code or an invalid divisor is ignored with CFGERR, and so is a change while enabled (R93, R81, R21). -/
def Obligations.UartBaudWriteEffect : Prop :=
  ∀ (v : Byte) (s : State),
    let c := (v.extractLsb' 0 4).toNat
    let flagged : State := { s with uart := { s.uart with err := { s.uart.err with cfgerr := true } } }
    decodeHreq (hreqWord false true 0x04 v) = .wrUartBaud v ∧
    (s.uart.enabled = true → exec (.wrUartBaud v) s = .next (if c = s.uart.baud.val then s else flagged)) ∧
    (s.uart.enabled = false → 8 < c → exec (.wrUartBaud v) s = .next flagged) ∧
    (s.uart.enabled = false → ∀ p ∈ [((0 : Fin 9), 2400), (1, 4800), (2, 9600), (3, 14400), (4, 19200), (5, 38400),
        (6, 57600), (7, 76900), (8, 115200)], c = p.1.val →
      let d : Int := (s.cfg.fClk / ((if s.uart.ctrl.u2x then 8 else 16) * p.2) : Nat) - 1
      exec (.wrUartBaud v) s = .next
        (if 0 ≤ d ∧ d ≤ 0xFFFF then { s with uart := { s.uart with baud := p.1, div := BitVec.ofInt 16 d } }
         else flagged))

/-- `WR UART_CMD, v` clears URX where bit 0 is 1 and UTX where bit 1 is 1, and nothing else (R102). `WR SPI_CMD, v`:
CLR_RX, then CLR_TX, then GO; GO outside buffered mode sets CFGERR, joins a running drain, does nothing with STX
empty, and otherwise starts a drain and asserts the line (R127). -/
def Obligations.CommandWritesClearAndStart : Prop :=
  ∀ (v : Byte) (s : State),
    let clr (b : Bool) (r : Ring) : Ring := if b then { r with head := 0, tail := 0, count := 0 } else r
    decodeHreq (hreqWord false true 0x0A v) = .wrUartCmd v ∧ decodeHreq (hreqWord false true 0x17 v) = .wrSpiCmd v ∧
    exec (.wrUartCmd v) s =
      .next { s with urx := clr (v.getLsbD 0) s.urx, utx := clr (v.getLsbD 1) s.utx } ∧
    exec (.wrSpiCmd v) s = .next { s with
      srx := clr (v.getLsbD 0) s.srx,
      stx := clr (v.getLsbD 1) s.stx,
      spi := if v.getLsbD 2 = false then s.spi
        else if s.spi.ctrl.spe = false ∨ s.spi.ctrl.buf = false then
          { s.spi with flags := { s.spi.flags with cfgerr := true } }
        else if s.spi.drain = .active ∨ (clr (v.getLsbD 1) s.stx).count = 0 then s.spi
        else { s.spi with drain := .active, auto := true } }

/-! ### UART engines and interrupts -/

/-- The UTX load step: with TXEN set, the shifter idle and UTX not empty, the oldest byte and the present format go
into the shifter (R104). The drain step: in an active drain with the shifter idle, the oldest byte of STX goes into the
shifter, or, with STX empty, the drain ends and the line is released (R128). Otherwise neither is a step. -/
def Obligations.LoadStepsTakeTheOldestByte : Prop :=
  ∀ s : State,
    runMove .utxStart s = .next
      (if s.uart.ctrl.txen = true ∧ s.uart.txsh = .idle ∧ 0 < s.utx.count then
         { s with utx := { s.utx with tail := (s.utx.tail + 1) % s.utx.cap, count := s.utx.count - 1 },
                  uart := { s.uart with txsh := .busy (s.utx.buf.getD s.utx.tail 0) s.uart.frame } }
       else s) ∧
    runMove .spiDrain s = .next
      (if s.spi.drain = .active ∧ s.spi.sh = .idle then
         if s.stx.count = 0 then { s with spi := { s.spi with drain := .idle, auto := false } }
         else { s with stx := { s.stx with tail := (s.stx.tail + 1) % s.stx.cap, count := s.stx.count - 1 },
                       spi := { s.spi with sh := .busy (s.stx.buf.getD s.stx.tail 0), auto := true } }
       else s)

/-- The UTX completion step: the low nb bits go out with their parity bit, TXC is set, and TXDONE where UTX is empty,
whatever LOOP and TXEN are; without loopback nothing else changes, and with it only URX and the error flags may (R105,
R83, R103). -/
def Obligations.UtxCompletesTheFrame : Prop :=
  ∀ (s : State) (b : Byte) (fmt : FrameFmt), s.uart.txsh = .busy b fmt →
    ∃ (d : Byte) (p : Option Bool) (t : State), runMove .utxFinish s = .next t ∧
      (∀ i, i < 8 → d.getLsbD i = (decide (i < 5 + fmt.chsz.toNat) && b.getLsbD i)) ∧
      (fmt.par = .absent → p = none) ∧
      (fmt.par ≠ .absent → ∃ x, p = some x ∧
        ((((List.range 8).filter fun i => d.getLsbD i).length + x.toNat) % 2 = 0 ↔ fmt.par = .even)) ∧
      t = { s with
        trace := s.trace ++ [.uartTxFrame d (5 + fmt.chsz.toNat) p (1 + fmt.sbs.toNat)],
        urx := t.urx,
        uart := { s.uart with
          txsh := .idle,
          err := t.uart.err,
          flags := { s.uart.flags with
            txc := true,
            txdone := s.uart.flags.txdone || decide (s.utx.count = 0) } } } ∧
      (s.uart.ctrl.loop = false → t.urx = s.urx ∧ t.uart.err = s.uart.err)

/-- A frame sent with LOOP = 1 arrives in the same step: discarded with RXEN = 0, else its low bits by the present
format are pushed, a full URX drops them unrecorded, and PE is set where the present format has parity and the frame's
parity bit is not that of the data. In an unchanged format no error flag is set and the byte is what was sent (R105,
R106); a frame loaded without parity and received with it sets PE (DEDUCED, log 13). -/
def Obligations.LoopbackDeliversWhatWasSent : Prop :=
  ∀ (s : State) (b : Byte) (fmt : FrameFmt), s.uart.txsh = .busy b fmt → s.uart.ctrl.loop = true →
    ∃ (d v : Byte) (p : Option Bool) (t : State), runMove .utxFinish s = .next t ∧
      t.trace = s.trace ++ [.uartTxFrame d (5 + fmt.chsz.toNat) p (1 + fmt.sbs.toNat)] ∧
      (∀ i, i < 8 → d.getLsbD i = (decide (i < 5 + fmt.chsz.toNat) && b.getLsbD i)) ∧
      (∀ i, i < 8 → v.getLsbD i = (decide (i < 5 + s.uart.frame.chsz.toNat) && d.getLsbD i)) ∧
      (fmt.par = .absent → p = none) ∧
      (fmt.par ≠ .absent → ∃ x, p = some x ∧
        ((((List.range 8).filter fun i => d.getLsbD i).length + x.toNat) % 2 = 0 ↔ fmt.par = .even)) ∧
      t = { s with
        urx := t.urx,
        trace := t.trace,
        uart := { s.uart with
          txsh := .idle,
          err := { s.uart.err with pe := t.uart.err.pe },
          flags := { s.uart.flags with
            txc := true,
            txdone := s.uart.flags.txdone || decide (s.utx.count = 0) } } } ∧
      t.urx = (if s.uart.ctrl.rxen = true ∧ s.urx.count ≠ s.urx.cap then
        { s.urx with buf := s.urx.buf.set s.urx.head v,
                     head := (s.urx.head + 1) % s.urx.cap,
                     count := s.urx.count + 1 } else s.urx) ∧
      (s.uart.ctrl.rxen = false ∨ s.uart.frame.par = .absent → t.uart.err.pe = s.uart.err.pe) ∧
      (s.uart.ctrl.rxen = true → s.uart.frame.par ≠ .absent → p = none → t.uart.err.pe = true) ∧
      (s.uart.ctrl.rxen = true → s.uart.frame.par ≠ .absent → ∀ x, p = some x →
        t.uart.err.pe = (s.uart.err.pe ||
          decide (¬((((List.range 8).filter fun i => v.getLsbD i).length + x.toNat) % 2 = 0 ↔
            s.uart.frame.par = .even)))) ∧
      (fmt = s.uart.frame → v = d ∧ t.uart.err = s.uart.err)

/-- A LINE frame: discarded while RXEN = 0 or LOOP = 1; else its low nb bits are pushed even with an error, FE
records a first stop bit of 0, PE a wrong parity bit, and a full URX drops the byte with no flag (R106). -/
def Obligations.LineFrameIsReceived : Prop :=
  ∀ (s : State) (d : Byte) (p s1 s2 : Bool), ∃ t, runMove (.line d p s1 s2) s = .next t ∧
    (s.uart.ctrl.rxen = false ∨ s.uart.ctrl.loop = true → t = s) ∧
    (s.uart.ctrl.rxen = true → s.uart.ctrl.loop = false →
      t = { s with urx := t.urx, uart := { s.uart with err := t.uart.err } } ∧
      t.uart.err.cfgerr = s.uart.err.cfgerr ∧ t.uart.err.fe = (s.uart.err.fe || !s1) ∧
      (s.uart.frame.par = .absent → t.uart.err.pe = s.uart.err.pe) ∧
      ∃ v : Byte, (∀ i, i < 8 → v.getLsbD i = (decide (i < 5 + s.uart.frame.chsz.toNat) && d.getLsbD i)) ∧
        (s.uart.frame.par ≠ .absent → t.uart.err.pe = (s.uart.err.pe ||
          decide (¬((((List.range 8).filter fun i => v.getLsbD i).length + p.toNat) % 2 = 0 ↔
            s.uart.frame.par = .even)))) ∧
        t.urx = if s.urx.count = s.urx.cap then s.urx
          else { s.urx with buf := s.urx.buf.set s.urx.head v,
                            head := (s.urx.head + 1) % s.urx.cap,
                            count := s.urx.count + 1 })

/-- IRQ_UART and IRQ_SPI are the levels of their conditions (R175, R176): no edge is latched, so writing 1 to TXDONE and
TXC leaves IRQ_UART to the receive term, and writing 1 to TC drops IRQ_SPI. -/
def Obligations.InterruptsAreLevels : Prop :=
  ∀ (v : Byte) (s : State),
    (irqUart s = true ↔ (s.uart.ctrl.rxie = true ∧ s.urx.count ≠ 0) ∨
      (s.uart.ctrl.txie = true ∧ s.uart.ctrl.txmode = false ∧ s.uart.flags.txdone = true) ∨
      (s.uart.ctrl.txie = true ∧ s.uart.ctrl.txmode = true ∧ s.uart.flags.txc = true)) ∧
    (irqSpi s = true ↔ s.spi.ctrl.spie = true ∧ s.spi.flags.tc = true) ∧
    (v.getLsbD 2 = true → v.getLsbD 3 = true → ∃ t u,
      exec (.wrUartStatus v) s = .next t ∧ exec (.wrSpiStatus v) s = .next u ∧
      (irqUart t = true ↔ s.uart.ctrl.rxie = true ∧ s.urx.count ≠ 0) ∧ irqSpi u = false)

/-! ### SPI master, HOST side -/

/-- `WR SPI_DATA, v`: buffered mode enqueues or sets TXOVF; unbuffered mode loads the shifter and asserts the line, or
sets WCOL where the shifter is busy, or sets CFGERR where the unit is disabled (R112, R113). -/
def Obligations.SpiDataWriteEffect : Prop :=
  ∀ (v : Byte) (s : State), decodeHreq (hreqWord false true 0x10 v) = .wrSpiData v ∧
    exec (.wrSpiData v) s = .next
      (if s.spi.ctrl.buf = true then
         if s.stx.count = s.stx.cap then
           { s with spi := { s.spi with flags := { s.spi.flags with txovf := true } } }
         else { s with stx := { s.stx with buf := s.stx.buf.set s.stx.head v,
                                           head := (s.stx.head + 1) % s.stx.cap,
                                           count := s.stx.count + 1 } }
       else if s.spi.ctrl.spe = false then
         { s with spi := { s.spi with flags := { s.spi.flags with cfgerr := true } } }
       else if s.spi.sh = .idle then { s with spi := { s.spi with sh := .busy v, auto := true } }
       else { s with spi := { s.spi with flags := { s.spi.flags with wcol := true } } })

/-- The SPI master's status, control, clock-select and slave-select registers read their fields, bit by bit, and
change nothing (R115, R117, R119, R121). -/
def Obligations.SpiRegistersReadTheirFields : Prop :=
  ∀ (x : Byte) (s : State),
    (∀ p ∈ [((0x11 : Byte), Instr.rdSpiStatus), (0x12, .rdSpiCtrl), (0x13, .rdSpiClksel), (0x14, .rdSpiSs)],
      decodeHreq (hreqWord false false p.1 x) = p.2) ∧
    ∃ st ct ck ss : Byte,
    (exec .rdSpiStatus s = .next { s with responses := s.responses ++ [.hostRead st] } ∧
      st.getLsbD 0 = decide (s.srx.count ≠ 0) ∧
      st.getLsbD 1 = (decide (s.spi.sh ≠ .idle) || decide (s.spi.drain = .active)) ∧
      st.getLsbD 2 = s.spi.flags.tc ∧ st.getLsbD 3 = s.spi.flags.wcol ∧ st.getLsbD 4 = s.spi.flags.txovf ∧
      st.getLsbD 5 = s.spi.flags.rxuf ∧ st.getLsbD 6 = s.spi.flags.cfgerr ∧ st.getLsbD 7 = false) ∧
    (exec .rdSpiCtrl s = .next { s with responses := s.responses ++ [.hostRead ct] } ∧
      ct.getLsbD 0 = s.spi.ctrl.spe ∧ ct.getLsbD 1 = s.spi.ctrl.mstr ∧ ct.getLsbD 2 = s.spi.ctrl.dord ∧
      ct.getLsbD 3 = s.spi.ctrl.cpol ∧ ct.getLsbD 4 = s.spi.ctrl.cpha ∧ ct.getLsbD 5 = s.spi.ctrl.buf ∧
      ct.getLsbD 6 = s.spi.ctrl.spie ∧ ct.getLsbD 7 = false) ∧
    (exec .rdSpiClksel s = .next { s with responses := s.responses ++ [.hostRead ck] } ∧
      ck.toNat = s.spi.clksel.val) ∧
    (exec .rdSpiSs s = .next { s with responses := s.responses ++ [.hostRead ss] } ∧
      ss.extractLsb' 0 3 = s.spi.ssidx ∧ ss.extractLsb' 3 4 = 0 ∧ ss.getLsbD 7 = s.spi.hold)

/-- `WR SPI_CTRL, v`: the five configuration bits change only with SPE = 0 before the write, SPE only while not busy,
SPIE always; an ignored change sets CFGERR; SPE = 1 with MSTR = 0 is refused SPI_SLAVE (R118, R111). -/
def Obligations.SpiCtrlWriteEffect : Prop :=
  ∀ (v : Byte) (s : State),
    let old := s.spi.ctrl
    let cfgSame := v.getLsbD 1 = old.mstr ∧ v.getLsbD 2 = old.dord ∧ v.getLsbD 3 = old.cpol ∧
      v.getLsbD 4 = old.cpha ∧ v.getLsbD 5 = old.buf
    let busy := s.spi.sh ≠ .idle ∨ s.spi.drain = .active
    let new : SpiCtrl :=
      { spe := if busy then old.spe else v.getLsbD 0
        mstr := if old.spe then old.mstr else v.getLsbD 1
        dord := if old.spe then old.dord else v.getLsbD 2
        cpol := if old.spe then old.cpol else v.getLsbD 3
        cpha := if old.spe then old.cpha else v.getLsbD 4
        buf := if old.spe then old.buf else v.getLsbD 5
        spie := v.getLsbD 6 }
    decodeHreq (hreqWord false true 0x12 v) = .wrSpiCtrl v ∧
    ∃ t, exec (.wrSpiCtrl v) s = .next t ∧
      t = { s with
        refusals := t.refusals,
        spi := { s.spi with
          ctrl := new,
          flags := { s.spi.flags with
            cfgerr := s.spi.flags.cfgerr ||
              decide ((old.spe = true ∧ ¬cfgSame) ∨ (v.getLsbD 0 ≠ old.spe ∧ busy)) } } } ∧
      (new.spe = true ∧ new.mstr = false → ∀ r, r ∈ t.refusals ↔ r = .spiSlave ∨ r ∈ s.refusals) ∧
      (¬(new.spe = true ∧ new.mstr = false) → t.refusals = s.refusals)

/-- `WR SPI_CLKSEL, v`: with SPE = 0 a code 0 to 6 is taken; code 7, or a change with SPE = 1, is ignored with CFGERR
(R120). `WR SPI_SS, v`: while not busy an existing line is taken with HOLD; a change while busy, or of a line that does
not exist, is ignored with CFGERR (R122). -/
def Obligations.SpiSelectWriteEffects : Prop :=
  ∀ (v : Byte) (s : State),
    let c := (v.extractLsb' 0 3).toNat
    let flagged : State := { s with spi := { s.spi with flags := { s.spi.flags with cfgerr := true } } }
    decodeHreq (hreqWord false true 0x13 v) = .wrSpiClksel v ∧ decodeHreq (hreqWord false true 0x14 v) = .wrSpiSs v ∧
    (c = s.spi.clksel.val → exec (.wrSpiClksel v) s = .next s) ∧
    (c ≠ s.spi.clksel.val → s.spi.ctrl.spe = true ∨ c = 7 → exec (.wrSpiClksel v) s = .next flagged) ∧
    (s.spi.ctrl.spe = false → ∀ k : Fin 7, c = k.val →
      exec (.wrSpiClksel v) s = .next { s with spi := { s.spi with clksel := k } }) ∧
    exec (.wrSpiSs v) s = .next
      (if v.getLsbD 7 = s.spi.hold ∧ v.extractLsb' 0 3 = s.spi.ssidx then s
       else if s.spi.sh ≠ .idle ∨ s.spi.drain = .active then flagged
       else if s.cfg.nSs ≤ c then flagged
       else { s with spi := { s.spi with hold := v.getLsbD 7, ssidx := v.extractLsb' 0 3 } })

/-- No HOST register access stops a transfer or a drain once started, or releases its line (R130). -/
def Obligations.NoHostAccessStopsATransfer : Prop :=
  ∀ (i : Instr) (s t : State), isAccess i = true → SpiOk s → s.spi.busy = true → exec i s = .next t →
    (∀ b, s.spi.sh = .busy b → t.spi.sh = .busy b) ∧ (s.spi.drain = .active → t.spi.drain = .active) ∧
    t.spi.auto = true ∧ ∀ k, cs t k = cs s k

/-! ### SPI master, engine steps -/

/-- The completion step: one SPI_XFER event, TC set, the received byte pushed into SRX or dropped unrecorded, the line
released in unbuffered mode; the SFP's byte slot runs inside it exactly on its own line, and on any other line the
received byte is free (R129). -/
def Obligations.SpiCompletionEffect : Prop :=
  ∀ (s : State) (b : Byte), s.spi.sh = .busy b → ∃ (miso : Byte) (t : State), runMove .spiComplete s = .next t ∧
    t.trace = s.trace ++ [.spiXfer s.spi.ssidx.toNat b miso s.spi.ctrl.dord s.spi.ctrl.cpol s.spi.ctrl.cpha
      (2 ^ (s.spi.clksel.val + 1))] ∧
    t.spi = { s.spi with sh := .idle,
                         flags := { s.spi.flags with tc := true },
                         auto := if s.spi.drain = .idle then false else s.spi.auto } ∧
    t.srx = (if s.srx.count = s.srx.cap then s.srx
      else { s.srx with buf := s.srx.buf.set s.srx.head miso,
                        head := (s.srx.head + 1) % s.srx.cap,
                        count := s.srx.count + 1 }) ∧
    (s.spi.ssidx.toNat = s.cfg.sfpSs → miso = (sfpSlot b s).1 ∧ t.sfp = (sfpSlot b s).2.sfp ∧
      t.faults = (sfpSlot b s).2.faults ∧ t.refusals = (sfpSlot b s).2.refusals) ∧
    (s.spi.ssidx.toNat ≠ s.cfg.sfpSs → t.sfp = s.sfp ∧ t.faults = s.faults ∧ t.refusals = s.refusals) ∧
    t = { s with trace := t.trace, spi := t.spi, srx := t.srx, sfp := t.sfp, faults := t.faults,
                 refusals := t.refusals, draws := t.draws }

/-- A drain with k bytes queued ends within k + 1 rounds of completion and drain steps: BUSY falls, STX is empty, and
AUTO falls, which releases the line unless HOLD keeps it (R128, R193). -/
def Obligations.DrainRunsToItsEnd : Prop :=
  ∀ (s : State) (rest : List Move), SpiOk s → s.spi.drain = .active →
    s.sched = (List.replicate (s.stx.count + 1) [Move.spiComplete, .spiDrain]).flatten ++ rest →
    ∃ t, Host.Core.run Sys2Proof.core (2 * (s.stx.count + 1)) s = .next t ∧ t.sched = rest ∧
      t.spi.busy = false ∧ t.stx.count = 0 ∧ t.spi.auto = false

/-! ### SFP, slots -/

/-- The end of every step: an assertion of the SFP's line begins a frame, a release ends it in any phase, and CSPREV
becomes the level (R131). -/
def Obligations.ChipSelectEdgesFrameTheBytes : Prop :=
  ∀ (s : State) (m : Move) (rest : List Move), s.sched = m :: rest →
    ∃ u, runMove m { s with sched := rest } = .next u ∧
      let c := u.spi.ctrl.spe && u.spi.ctrl.mstr && decide (u.cfg.sfpSs = u.spi.ssidx.toNat) &&
        (u.spi.hold || u.spi.auto)
      step s = .next { u with sfp := { u.sfp with
        csPrev := c,
        phase := if c = true ∧ u.sfp.csPrev = false then .addrHi
          else if c = false ∧ u.sfp.csPrev = true then .idle else u.sfp.phase,
        n := if c = true ∧ u.sfp.csPrev = false then 0 else u.sfp.n } }

/-- A byte slot while the SFP settles records SFP_FRAME_DURING_RESET, and else in a wrong link mode SFP_LINK_MODE;
neither changes the SFP (R132, R133, R174). -/
def Obligations.SlotFaultsLeaveTheSfp : Prop :=
  ∀ (b : Byte) (s : State),
    (s.sfp.resetting = true → (sfpSlot b s).2.sfp = s.sfp ∧
      (∀ f, f ∈ (sfpSlot b s).2.faults ↔ f = .sfpFrameDuringReset ∨ f ∈ s.faults)) ∧
    (s.sfp.resetting = false → ¬(s.spi.ctrl.dord = false ∧ s.spi.ctrl.cpol = s.spi.ctrl.cpha) →
      (sfpSlot b s).2.sfp = s.sfp ∧ (∀ f, f ∈ (sfpSlot b s).2.faults ↔ f = .sfpLinkMode ∨ f ∈ s.faults))

/-- The byte slots of a frame. Three header bytes after an assertion latch ADDR and the control byte and open the data
phase; a reserved block select records SFP_RESERVED_BSB and sends the parser to IDLE (R133, R134, R62). A data slot reads
or writes the byte at the block select and ADDR, as R138 dispatches it; a byte that the spec fixes is returned, and a
write of an identity byte stores it and leaves every other byte; then ADDR moves on by one modulo 2^16 and N by one, or,
once N reaches len(OM) in FDM, the next byte is the ADDR_HI byte of a new header with N = 0 (R135, R136, R137). -/
def Obligations.HeaderBytesAreLatched : Prop :=
  (∀ (hi lo ctl : Byte) (s : State), s.sfp.resetting = false → linkOk s = true → s.sfp.phase = .addrHi →
    let t := (slots [hi, lo, ctl] s).2
    let reserved := ctl.extractLsb' 3 2 = 0 ∧ ctl.extractLsb' 5 3 ≠ 0
    t.sfp.addr = hi ++ lo ∧ t.sfp.ctl = ctl ∧ t.sfp.n = 0 ∧ t.sfp.regs = s.sfp.regs ∧ t.refusals = s.refusals ∧
    (reserved → t.sfp.phase = .idle ∧ ∀ f, f ∈ t.faults ↔ f = .sfpReservedBsb ∨ f ∈ s.faults) ∧
    (¬reserved → t.sfp.phase = .data ∧ t.faults = s.faults)) ∧
  ∀ (b : Byte) (s : State), s.sfp.resetting = false → linkOk s = true → s.sfp.phase = .data →
    let t := (sfpSlot b s).2
    let bsb : Bsb := s.sfp.ctl.extractLsb' 3 5
    let om := s.sfp.ctl.extractLsb' 0 2
    let last := (om = 1 ∧ s.sfp.n + 1 = 1) ∨ (om = 2 ∧ s.sfp.n + 1 = 2) ∨ (om = 3 ∧ s.sfp.n + 1 = 4)
    (t.sfp.addr.toNat = (s.sfp.addr.toNat + 1) % 65536 ∧ t.sfp.ctl = s.sfp.ctl ∧ t.sfp.csPrev = s.sfp.csPrev ∧
      t = { s with sfp := t.sfp, draws := t.draws, faults := t.faults, refusals := t.refusals }) ∧
    (last → t.sfp.phase = .addrHi ∧ t.sfp.n = 0) ∧
    (¬last → t.sfp.phase = .data ∧ t.sfp.n = s.sfp.n + 1) ∧
    (s.sfp.ctl.getLsbD 2 = false →
      (sfpSlot b s).1 = (memRead bsb s.sfp.addr s).1 ∧ t.faults = (memRead bsb s.sfp.addr s).2.faults ∧
      t.refusals = (memRead bsb s.sfp.addr s).2.refusals ∧ t.sfp.regs = s.sfp.regs ∧ t.sfp.resetting = false ∧
      ∀ v, peek s bsb s.sfp.addr = some v → (sfpSlot b s).1 = v ∧ t.refusals = s.refusals ∧
        (TotalsOk s → t.faults = s.faults)) ∧
    (s.sfp.ctl.getLsbD 2 = true →
      t.sfp.regs = (memWrite bsb s.sfp.addr b s).sfp.regs ∧
      t.sfp.resetting = (memWrite bsb s.sfp.addr b s).sfp.resetting ∧
      t.faults = (memWrite bsb s.sfp.addr b s).faults ∧ t.refusals = (memWrite bsb s.sfp.addr b s).refusals ∧
      (bsb = 0 → 1 ≤ s.sfp.addr.toNat → s.sfp.addr.toNat ≤ 0x12 →
        t.faults = s.faults ∧ t.refusals = s.refusals ∧ peek t 0 s.sfp.addr = some b ∧
        ∀ c a, (c ≠ 0 ∨ a ≠ s.sfp.addr) → peek t c a = peek s c a))

/-! ### SFP, frames -/

/-- A read frame of any of the four readable blocks, in any mode that admits its length, returns after its three
header slots the bytes of the consecutive offsets, and changes no register, buffer or record (R139, R141, R143,
R145, R136). It is about a frame as one step (log 9) that begins on a released line and meets no unwritten cell; an
unwritten cell reads a draw. -/
def Obligations.ReadFramesReturnTheBytes : Prop :=
  ∀ (n : SockIx) (off : Word16) (om : OpMode) (len : Nat) (s : State), om.admits len = true → FrameReady s →
    ∀ p ∈ [(Instr.frameCommonRead off om len, (0 : Bsb)), (.frameSockRegRead n off om len, bsbOf n 1),
        (.frameTxBufRead n off om len, bsbOf n 2), (.frameRxBufRead n off om len, bsbOf n 3)],
      (∀ k, k < len → (peek s p.2 (off + BitVec.ofNat 16 k)).isSome = true) →
      (p.2 = bsbOf n 2 ∨ p.2 = bsbOf n 3 → TotalsOk s) →
      ∃ t header vals, exec p.1 s = .next t ∧ t.responses = s.responses ++ [.miso (header ++ vals)] ∧
        header.length = 3 ∧
        vals.map some = (List.range len).map (fun k => peek s p.2 (off + BitVec.ofNat 16 k)) ∧
        FrameLeaves s t ∧ t.sfp.regs = s.sfp.regs ∧ t.faults = s.faults ∧ t.refusals = s.refusals

/-- A common-register write frame, in any mode that admits its data, stores each byte at its offset; every other byte
of the SFP's address space reads as before, and nothing is recorded (R140, R147, R136). -/
def Obligations.CommonWriteFrameStores : Prop :=
  ∀ (off : Word16) (om : OpMode) (data : List Byte) (s : State), om.admits data.length = true → FrameReady s →
    (∀ k, k < data.length → 1 ≤ (off + BitVec.ofNat 16 k).toNat ∧ (off + BitVec.ofNat 16 k).toNat ≤ 0x12) →
    ∃ t, exec (.frameCommonWrite off om data) s = .next t ∧ FrameLeaves s t ∧
      t.faults = s.faults ∧ t.refusals = s.refusals ∧ t.sfp.resetting = false ∧
      (∀ k, k < data.length → peek t 0 (off + BitVec.ofNat 16 k) = data[k]?) ∧
      ∀ b a, (b ≠ 0 ∨ ∀ k, k < data.length → a ≠ off + BitVec.ofNat 16 k) → peek t b a = peek s b a

/-- The 18-byte identity record written by one frame at offset 0x0001 is GAR, SUBR, SHAR and SIPR in order, and one
frame reads it back (R139, R140, R147, R136, R43). -/
def Obligations.IdentityRecordRoundTrip : Prop :=
  ∀ (data : List Byte) (s : State), data.length = 18 → FrameReady s →
    ∃ t u header, exec (.frameCommonWrite 0x0001 .vdm data) s = .next t ∧
      t.sfp.regs.gar.toList ++ t.sfp.regs.subr.toList ++ t.sfp.regs.shar.toList ++ t.sfp.regs.sipr.toList = data ∧
      t.sfp.regs.mr = s.sfp.regs.mr ∧ t.sfp.regs.socks = s.sfp.regs.socks ∧
      exec (.frameCommonRead 0x0001 .vdm 18) t = .next u ∧ header.length = 3 ∧
      u.responses = t.responses ++ [.miso (header ++ data)] ∧
      u.faults = s.faults ∧ u.refusals = s.refusals

/-- A write of MR through a frame: with bit 7 set a soft reset, which resets every register, socket and buffer, reads
RST = 1 and starts the settling; else bits 6:0 are stored and nothing else changes (R166). -/
def Obligations.ModeRegisterWriteAndSoftReset : Prop :=
  ∀ (om : OpMode) (v : Byte) (s : State), FrameReady s →
    ∃ t, exec (.frameCommonWrite 0x0000 om [v]) s = .next t ∧ FrameLeaves s t ∧
      t.faults = s.faults ∧ t.refusals = s.refusals ∧
      (v.getLsbD 7 = true → t.sfp.resetting = true ∧ t.sfp.regs = { sfpRegsReset with mr := 0x80 }) ∧
      (v.getLsbD 7 = false → t.sfp.resetting = false ∧
        t.sfp.regs = { s.sfp.regs with mr := t.sfp.regs.mr } ∧
        t.sfp.regs.mr.getLsbD 7 = s.sfp.regs.mr.getLsbD 7 ∧
        ∀ i, i < 7 → t.sfp.regs.mr.getLsbD i = v.getLsbD i)

/-- A socket-register write frame over Sn_MR, Sn_SR and Sn_PORT, in any mode that admits its data: Sn_MR and Sn_PORT
store their bytes, Sn_SR ignores its; every other byte of the address space reads as before, and nothing is recorded
(R142, R148, R149, R136; a frame as one step, log 9). -/
def Obligations.SocketRegisterWriteFrame : Prop :=
  ∀ (n : SockIx) (off : Word16) (om : OpMode) (data : List Byte) (s : State), om.admits data.length = true →
    FrameReady s →
    (∀ k, k < data.length → off + BitVec.ofNat 16 k ∈ [(0x0000 : Word16), 0x0003, 0x0004, 0x0005]) →
    ∃ t, exec (.frameSockRegWrite n off om data) s = .next t ∧ FrameLeaves s t ∧
      t.faults = s.faults ∧ t.refusals = s.refusals ∧ t.sfp.resetting = false ∧
      (∀ k, k < data.length → peek t (bsbOf n 1) (off + BitVec.ofNat 16 k) =
        (if off + BitVec.ofNat 16 k = 0x0003 then peek s (bsbOf n 1) 0x0003 else data[k]?)) ∧
      ∀ b a, (b ≠ bsbOf n 1 ∨ ∀ k, k < data.length → a ≠ off + BitVec.ofNat 16 k) → peek t b a = peek s b a

/-- A write of Sn_CR: 0x00 does nothing; a command while one is pending records SFP_CMD_OVERRUN; a reserved byte is
refused SFP_CMD_RESERVED; one of the nine becomes pending, with SFP_BUFSIZE_TOTAL recorded where the totals are
exceeded (R150, R165). -/
def Obligations.CommandRegisterWrite : Prop :=
  ∀ (n : SockIx) (om : OpMode) (c : Byte) (s : State), FrameReady s →
    ∃ t, exec (.frameSockRegWrite n 0x0001 om [c]) s = .next t ∧ FrameLeaves s t ∧
      (c = 0 → t.sfp.regs = s.sfp.regs ∧ t.faults = s.faults ∧ t.refusals = s.refusals) ∧
      (c ≠ 0 → (s.sock n).crpend ≠ 0 →
        t.sfp.regs = s.sfp.regs ∧ .sfpCmdOverrun ∈ t.faults ∧ t.refusals = s.refusals) ∧
      (c ≠ 0 → (s.sock n).crpend = 0 → c ∉ commandCodes →
        t.sfp.regs = s.sfp.regs ∧ .sfpCmdReserved ∈ t.refusals ∧ t.faults = s.faults) ∧
      (c ∈ commandCodes → (s.sock n).crpend = 0 →
        t.sock n = { s.sock n with crpend := c } ∧ (∀ m, m ≠ n → t.sock m = s.sock m) ∧
        t.sfp.regs = { s.sfp.regs with socks := t.sfp.regs.socks } ∧ t.refusals = s.refusals ∧
        (TotalsOk s → t.faults = s.faults) ∧ (¬TotalsOk s → .sfpBufsizeTotal ∈ t.faults))

/-- A write of a buffer size: an illegal value records SFP_ILLEGAL_BUFSIZE and is not stored; a new legal value is
stored and empties that buffer; the present value changes nothing; the totals are not checked here (R151). -/
def Obligations.BufferSizeWrite : Prop :=
  ∀ (n : SockIx) (om : OpMode) (v : Byte) (s : State), FrameReady s →
    ∃ t u, exec (.frameSockRegWrite n 0x001E om [v]) s = .next t ∧ FrameLeaves s t ∧
      exec (.frameSockRegWrite n 0x001F om [v]) s = .next u ∧ FrameLeaves s u ∧
      t.refusals = s.refusals ∧ u.refusals = s.refusals ∧
      (v.toNat ∉ [0, 1, 2, 4, 8, 16] → t.sfp.regs = s.sfp.regs ∧ u.sfp.regs = s.sfp.regs ∧
        (∀ f, f ∈ t.faults ↔ f = .sfpIllegalBufsize ∨ f ∈ s.faults) ∧
        (∀ f, f ∈ u.faults ↔ f = .sfpIllegalBufsize ∨ f ∈ s.faults)) ∧
      (v.toNat ∈ [0, 1, 2, 4, 8, 16] → t.faults = s.faults ∧ u.faults = s.faults ∧
        t.sfp.regs = { s.sfp.regs with socks := t.sfp.regs.socks } ∧
        u.sfp.regs = { s.sfp.regs with socks := u.sfp.regs.socks } ∧
        (∀ m, m ≠ n → t.sock m = s.sock m ∧ u.sock m = s.sock m) ∧
        t.sock n = (if v = (s.sock n).rxsz then s.sock n else { s.sock n with rxsz := v, rxbuf := [] }) ∧
        u.sock n = (if v = (s.sock n).txsz then s.sock n else { s.sock n with txsz := v, txbuf := [] }))

/-- A TX-buffer write frame no longer than the buffer stores each byte in the cell of its offset, modulo the buffer's
size, and read slots return it; every cell and register outside the stored cells reads as before (R144, R152,
R136). -/
def Obligations.TxBufferWriteFrameStores : Prop :=
  ∀ (n : SockIx) (off : Word16) (om : OpMode) (data : List Byte) (s : State),
    om.admits data.length = true → FrameReady s → TotalsOk s → legalSize (s.sock n).txsz = true →
    (s.sock n).txsz ≠ 0 → data.length ≤ cellsOf (s.sock n).txsz →
    ∃ t, exec (.frameTxBufWrite n off om data) s = .next t ∧ FrameLeaves s t ∧
      t.faults = s.faults ∧ t.refusals = s.refusals ∧ t.sfp.resetting = false ∧
      (∀ k, k < data.length → peek t (bsbOf n 2) (off + BitVec.ofNat 16 k) = data[k]?) ∧
      ∀ b a, (b ≠ bsbOf n 2 ∨ ∀ k, k < data.length →
        cellIndex a (s.sock n).txsz ≠ cellIndex (off + BitVec.ofNat 16 k) (s.sock n).txsz) →
        peek t b a = peek s b a

/-- One byte moved to or from a buffer: SFP_BUFSIZE_TOTAL is recorded exactly where a direction's sizes sum to more than
16, SFP_BUF_ZERO exactly where the buffer has size 0, and a read or a refused write changes no register or cell (R143,
R144, R145, R151, R152). After the fault the rest of the pseudocode still runs (the model's reading, log 14). -/
def Obligations.BufferAccessOutcomes : Prop :=
  ∀ (n : SockIx) (off : Word16) (om : OpMode) (v : Byte) (s : State), FrameReady s →
    ∀ p ∈ [(Instr.frameTxBufRead n off om 1, (s.sock n).txsz), (.frameTxBufWrite n off om [v], (s.sock n).txsz),
        (.frameRxBufRead n off om 1, (s.sock n).rxsz)],
      ∃ t, exec p.1 s = .next t ∧ FrameLeaves s t ∧
        (∀ f, f ∈ t.faults ↔ (f = .sfpBufsizeTotal ∧ ¬TotalsOk s) ∨ f ∈ s.faults) ∧
        (∀ r, r ∈ t.refusals ↔ (r = .sfpBufZero ∧ p.2 = 0) ∨ r ∈ s.refusals) ∧
        (p.2 = 0 ∨ p.1 ≠ .frameTxBufWrite n off om [v] → t.sfp.regs = s.sfp.regs) ∧
        (p.2 ≠ 0 → p.1 = .frameTxBufWrite n off om [v] →
          t.sfp.regs = { s.sfp.regs with socks := t.sfp.regs.socks } ∧ (∀ m, m ≠ n → t.sock m = s.sock m) ∧
          t.sock n = { s.sock n with txbuf := (s.sock n).txbuf.write (cellIndex off (s.sock n).txsz) v })

/-- A data byte of an RX-buffer write frame is refused SFP_RXBUF_WRITE and changes nothing the SFP holds; a header with
no data byte is not refused (R146). -/
def Obligations.RxBufferWriteIsRefused : Prop :=
  ∀ (n : SockIx) (off : Word16) (om : OpMode) (data : List Byte) (s : State),
    om.admits data.length = true → FrameReady s →
    ∃ t, exec (.frameRxBufWrite n off om data) s = .next t ∧ FrameLeaves s t ∧
      t.sfp.regs = s.sfp.regs ∧ t.faults = s.faults ∧
      (data = [] → t.refusals = s.refusals) ∧
      (data ≠ [] → ∀ r, r ∈ t.refusals ↔ r = .sfpRxbufWrite ∨ r ∈ s.refusals)

/-- An access to an unnamed register is refused SFP_UNMODELLED_REG and changes nothing the SFP holds (R153). -/
def Obligations.UnnamedRegistersAreRefused : Prop :=
  ∀ (n : SockIx) (off : Word16) (om : OpMode) (v : Byte) (s : State), FrameReady s →
    (0x12 < off.toNat → ∀ i ∈ [Instr.frameCommonRead off om 1, .frameCommonWrite off om [v]],
      ∃ t, exec i s = .next t ∧ FrameLeaves s t ∧ t.sfp.regs = s.sfp.regs ∧
        .sfpUnmodelledReg ∈ t.refusals ∧ t.faults = s.faults) ∧
    (off.toNat ∉ [0x00, 0x01, 0x03, 0x04, 0x05, 0x1E, 0x1F] →
      ∀ i ∈ [Instr.frameSockRegRead n off om 1, .frameSockRegWrite n off om [v]],
      ∃ t, exec i s = .next t ∧ FrameLeaves s t ∧ t.sfp.regs = s.sfp.regs ∧
        .sfpUnmodelledReg ∈ t.refusals ∧ t.faults = s.faults)

/-- A frame with one of the seven reserved block selects records SFP_RESERVED_BSB, ignores its data bytes and changes
no register or buffer (R134, R133). -/
def Obligations.ReservedBlockSelectsFault : Prop :=
  ∀ (off : Word16) (rwb : Bool) (om : OpMode) (data : List Byte) (s : State), FrameReady s →
    ∀ i ∈ [Instr.frameReservedBsb4 off rwb om data, .frameReservedBsb8 off rwb om data,
        .frameReservedBsb12 off rwb om data, .frameReservedBsb16 off rwb om data,
        .frameReservedBsb20 off rwb om data, .frameReservedBsb24 off rwb om data,
        .frameReservedBsb28 off rwb om data],
      ∃ t, exec i s = .next t ∧ FrameLeaves s t ∧ t.sfp.regs = s.sfp.regs ∧ t.refusals = s.refusals ∧
        ∀ f, f ∈ t.faults ↔ f = .sfpReservedBsb ∨ f ∈ s.faults

/-! ### Socket commands and NET -/

/-- Each command, taken in a status that R156 to R164 list for it, sets the status they say and clears CRPEND; nothing
else of the state changes but the count of draws. -/
def Obligations.CommandsTakeTheirEffect : Prop :=
  ∀ (n : SockIx) (s : State),
    let takes (i : Instr) (p : SockStatus → Prop) := ∃ t, exec i s = .next t ∧ p (t.sock n).sr ∧
      t = { s.onSock n (fun k => { k with sr := (t.sock n).sr, crpend := 0 }) with draws := t.draws }
    let sr := (s.sock n).sr
    let proto := ((s.sock n).mr.extractLsb' 0 4).toNat
    takes (.cmdClose n) (· = .closed) ∧
    (sr = .closed → takes (.cmdOpen n) (· = if proto = 1 then .init else if proto = 2 then .udp
      else if proto = 4 ∧ n = 0 then .macraw else .closed)) ∧
    (sr = .init → takes (.cmdListen n) (· = .listen) ∧ takes (.cmdConnect n) (· = .synsent)) ∧
    (sr = .established → takes (.cmdDiscon n) (fun x => x = .finWait ∨ x = .closed)) ∧
    (sr = .closeWait → takes (.cmdDiscon n) (fun x => x = .lastAck ∨ x = .closed)) ∧
    (sr = .established ∨ sr = .closeWait ∨ sr = .udp ∨ sr = .macraw →
      takes (.cmdSend n) (· = sr) ∧ takes (.cmdRecv n) (· = sr)) ∧
    (sr = .udp → takes (.cmdSendMac n) (· = sr)) ∧
    (sr = .established ∨ sr = .closeWait → takes (.cmdSendKeep n) (· = sr))

/-- A command taken in any other status is refused NET_CMD_STATE, leaves the status and clears CRPEND (R155 to R164;
that OPEN then leaves the status is the model's reading, log 12). The meanings of 0x00 and of a reserved byte are those
of their write (the model's reading, log 10): 0x00 issues no command, and a reserved one written while none is pending is
refused SFP_CMD_RESERVED and never becomes pending (R150, R165). -/
def Obligations.CommandsElsewhereAreRefused : Prop :=
  ∀ (n : SockIx) (c : Byte) (s : State),
    let refused (i : Instr) := ∃ t, exec i s = .next t ∧
      (∀ r, r ∈ t.refusals ↔ r = .netCmdState ∨ r ∈ s.refusals) ∧
      t = { s.onSock n (fun k => { k with crpend := 0 }) with refusals := t.refusals, draws := t.draws }
    let sr := (s.sock n).sr
    (sr ≠ .closed → refused (.cmdOpen n)) ∧
    (sr ≠ .init → refused (.cmdListen n) ∧ refused (.cmdConnect n)) ∧
    (sr ∉ [.established, .closeWait] → refused (.cmdDiscon n) ∧ refused (.cmdSendKeep n)) ∧
    (sr ∉ [.established, .closeWait, .udp, .macraw] → refused (.cmdSend n) ∧ refused (.cmdRecv n)) ∧
    (sr ≠ .udp → refused (.cmdSendMac n)) ∧
    exec (.cmdNone n) s = .next s ∧
    ((s.sock n).crpend = 0 → ∃ t, exec (.cmdReserved n c) s = .next t ∧ t = { s with refusals := t.refusals } ∧
      ∀ r, r ∈ t.refusals ↔ r = .sfpCmdReserved ∨ r ∈ s.refusals)

/-- NET takes no step while the SFP settles; its steps change only SR, CRPEND and RXBUF of the named socket, and the
records. A spontaneous status event takes exactly the listed arrows; a received byte is stored, in exactly the named
cell, where the status carries data and the cell lies in the buffer; an event R155 does not list is no step (R155). -/
def Obligations.NetChangesOnlyItsFields : Prop :=
  ∀ (n : SockIx) (m : Move) (s t : State), SfpOk s →
    (m = .netTake n ∨ (∃ x, m = .netStatus n x) ∨ (∃ i v, m = .netRx n i v)) → runMove m s = .next t →
    (s.sfp.resetting = true → t = s) ∧
    t = { s.onSock n (fun k => { k with sr := (t.sock n).sr, crpend := (t.sock n).crpend,
                                        rxbuf := (t.sock n).rxbuf }) with
          refusals := t.refusals, draws := t.draws } ∧
    (m = .netTake n → (t.sock n).rxbuf = (s.sock n).rxbuf) ∧
    (m ≠ .netTake n → t.refusals = s.refusals ∧ t.draws = s.draws ∧ (t.sock n).crpend = (s.sock n).crpend) ∧
    (∀ x, m = .netStatus n x → (t.sock n).rxbuf = (s.sock n).rxbuf ∧
      (t.sock n).sr = if s.sfp.resetting = false ∧ ((s.sock n).sr, x) ∈
          ([(.listen, .synrecv), (.listen, .established), (.synrecv, .established), (.synrecv, .closed),
            (.synsent, .established), (.synsent, .closed), (.established, .closeWait), (.established, .closed),
            (.closeWait, .closed), (.finWait, .closing), (.finWait, .timeWait), (.finWait, .closed),
            (.closing, .timeWait), (.closing, .closed), (.timeWait, .closed), (.lastAck, .closed)] :
            List (SockStatus × SockStatus))
        then x else (s.sock n).sr) ∧
    (∀ i v, m = .netRx n i v → (t.sock n).sr = (s.sock n).sr ∧
      ∀ j, (t.sock n).rxbuf.read j =
        if j = i ∧ s.sfp.resetting = false ∧ (s.sock n).sr ∈ [.established, .closeWait, .udp, .macraw] ∧
          i < (s.sock n).rxsz.toNat * 1024
        then some v else (s.sock n).rxbuf.read j)

/-! ### Pins and settling -/

/-- SFP_HARD_RESET resets the whole SFP and starts its settling, whatever it was doing, and touches nothing on the
MCU side (R167); the reset values are those of R35 and R36: every register byte 0x00, and each socket CLOSED with nothing
pending, sizes of 2 KiB and no cell written. -/
def Obligations.HardResetResetsTheSfp : Prop :=
  ∀ s : State, ∃ t, exec .pinSfpHardReset s = .next t ∧
    t = { s with sfp :=
      { phase := .idle, addr := 0, ctl := 0, n := 0, csPrev := cs s s.cfg.sfpSs, resetting := true,
        regs := t.sfp.regs } } ∧
    t.sfp.regs = sfpRegsReset ∧
    t.sfp.regs.mr = 0x00 ∧ t.sfp.regs.gar.toList = [0, 0, 0, 0] ∧ t.sfp.regs.subr.toList = [0, 0, 0, 0] ∧
    t.sfp.regs.shar.toList = [0, 0, 0, 0, 0, 0] ∧ t.sfp.regs.sipr.toList = [0, 0, 0, 0] ∧
    ∀ n, (t.sock n).mr = 0x00 ∧ (t.sock n).crpend = 0x00 ∧ (t.sock n).sr = .closed ∧
      (t.sock n).port0 = 0x00 ∧ (t.sock n).port1 = 0x00 ∧ (t.sock n).rxsz = 0x02 ∧ (t.sock n).txsz = 0x02 ∧
      ∀ i, (t.sock n).txbuf.read i = none ∧ (t.sock n).rxbuf.read i = none

/-- DELAY_SETTLE has no effect once the SFP is settled; while it settles HOST's program does not move past it (log 15),
and the settle step, which clears RESETTING and RST and changes nothing else, lets it complete (R168, R169). -/
def Obligations.DelaySettleWaitsForTheSettleStep : Prop :=
  ∀ (s : State) (q : List HostAccess) (rest : List Move),
    (∃ t, runMove .sfpSettle s = .next t ∧ (s.sfp.resetting = false → t = s) ∧
      (s.sfp.resetting = true →
        t = { s with sfp := { s.sfp with resetting := false, regs := { s.sfp.regs with mr := t.sfp.regs.mr } } } ∧
        t.sfp.regs.mr.getLsbD 7 = false ∧ ∀ i, i < 7 → t.sfp.regs.mr.getLsbD i = s.sfp.regs.mr.getLsbD i)) ∧
    (s.sfp.resetting = false → exec .pinDelaySettle s = .next s) ∧
    (s.sfp.resetting = true → s.hostq = ⟨8, pinWord 1⟩ :: q →
      s.sched = .host :: .sfpSettle :: .host :: rest →
      ∃ a b c, step s = .next a ∧ step a = .next b ∧ step b = .next c ∧
        a.hostq = s.hostq ∧ a.sfp.resetting = true ∧ b.sfp.resetting = false ∧
        b.sfp.regs.mr.getLsbD 7 = false ∧ (∀ i, i < 7 → b.sfp.regs.mr.getLsbD i = s.sfp.regs.mr.getLsbD i) ∧
        b.sfp.regs = { s.sfp.regs with mr := b.sfp.regs.mr } ∧ b.sfp.addr = s.sfp.addr ∧ b.sfp.ctl = s.sfp.ctl ∧
        c.hostq = q ∧ c.sched = rest ∧ c.sfp = b.sfp ∧ c.faults = s.faults)
end

