-- ==== Sys2Proof/Laws/Memory.lean ====
section
/-!
SUPPORT. Buffer cells: a write keeps the canonical form, a read after a write gives what was written, and
every other cell is left alone.
-/

namespace Sys2Proof.Machine.Laws

/-- The canonical form as a proposition. -/
theorem memory_wf_iff (m : Memory) : Memory.wf m = true ↔ m.Pairwise (fun a b => a.1 < b.1) := by
  simp [Memory.wf]

/-- The empty buffer is canonical. -/
@[simp] theorem memory_wf_nil : Memory.wf [] = true := by decide

/-- Nothing is written in the empty buffer. -/
@[simp] theorem memory_read_nil (i : Nat) : Memory.read [] i = none := rfl

/-- The cells after a write: the written one and cells that were there. -/
theorem mem_memory_write {m : Memory} {i : Nat} {v : Byte} {c : Host.Cell} (h : c ∈ Memory.write m i v) :
    c = (i, v) ∨ c ∈ m := by
  induction m with
  | nil => simpa [Memory.write] using h
  | cons a rest ih =>
    obtain ⟨j, w⟩ := a
    simp only [Memory.write] at h
    split at h
    · simp only [List.mem_cons] at h ⊢; tauto
    · split at h
      · simp only [List.mem_cons] at h ⊢; tauto
      · rcases List.mem_cons.1 h with h | h
        · exact Or.inr (List.mem_cons.2 (Or.inl h))
        · rcases ih h with h | h
          · exact Or.inl h
          · exact Or.inr (List.mem_cons_of_mem _ h)

/-- A write keeps the canonical form. -/
theorem memory_write_wf {m : Memory} (i : Nat) (v : Byte) (h : Memory.wf m = true) :
    Memory.wf (Memory.write m i v) = true := by
  rw [memory_wf_iff] at h ⊢
  induction m with
  | nil => simp [Memory.write]
  | cons a rest ih =>
    obtain ⟨j, w⟩ := a
    have hr := List.pairwise_cons.1 h
    simp only [Memory.write]
    split
    · next hij =>
      refine List.pairwise_cons.2 ⟨fun c hc => ?_, h⟩
      rcases List.mem_cons.1 hc with rfl | hc
      · exact hij
      · exact Nat.lt_trans hij (hr.1 c hc)
    · split
      · next hij =>
        subst hij
        exact List.pairwise_cons.2 ⟨hr.1, hr.2⟩
      · refine List.pairwise_cons.2 ⟨fun c hc => ?_, ih hr.2⟩
        rcases mem_memory_write hc with rfl | hc
        · simp only; omega
        · exact hr.1 c hc

/-- The written cell reads as written. -/
@[simp] theorem memory_read_write_same (m : Memory) (i : Nat) (v : Byte) :
    (Memory.write m i v).read i = some v := by
  induction m with
  | nil => simp [Memory.write, Memory.read]
  | cons a rest ih =>
    obtain ⟨j, w⟩ := a
    simp only [Memory.write]
    split
    · simp [Memory.read]
    · split
      · simp [Memory.read]
      · next h => simp [Memory.read, Ne.symm h, ih]

/-- Every other cell reads as before. -/
theorem memory_read_write_other (m : Memory) (i j : Nat) (v : Byte) (h : j ≠ i) :
    (Memory.write m i v).read j = m.read j := by
  induction m with
  | nil => simp [Memory.write, Memory.read, Ne.symm h]
  | cons a rest ih =>
    obtain ⟨k, w⟩ := a
    simp only [Memory.write]
    split
    · simp [Memory.read, Ne.symm h]
    · split
      · next hk => subst hk; simp [Memory.read, Ne.symm h]
      · simp only [Memory.read, ih]

/-- A write within the buffer leaves the buffer canonical and within its size. -/
theorem memory_within_write {m : Memory} {sz : Byte} (i : Nat) (v : Byte) (hm : Memory.Within m sz)
    (hi : i < cellsOf sz) : Memory.Within (m.write i v) sz :=
  ⟨memory_write_wf i v hm.1, fun c hc => by
    rcases mem_memory_write hc with rfl | hc
    · exact hi
    · exact hm.2 c hc⟩

/-- The empty buffer lies in any size. -/
theorem memory_within_nil (sz : Byte) : Memory.Within [] sz := ⟨rfl, by simp⟩

/-- A cell index lies in its buffer, for a size that is not 0. -/
theorem cellIndex_lt (off : Word16) {sz : Byte} (h : sz ≠ 0) : cellIndex off sz < cellsOf sz := by
  have : 0 < sz.toNat := Nat.pos_of_ne_zero fun e => h (BitVec.eq_of_toNat_eq (by simpa using e))
  exact Nat.mod_lt _ (by unfold cellsOf; omega)

end Sys2Proof.Machine.Laws
end

