-- ==== Sys2Proof/Laws/State.lean ====
section
/-!
SUPPORT. For each update of State, what it does to each field: no later proof unfolds an update.
-/

namespace Sys2Proof.Machine

namespace Laws


/-! ### onUart -/

@[simp] theorem onUart_cfg (s : State) (f : Uart → Uart) : (s.onUart f).cfg = s.cfg := rfl
@[simp] theorem onUart_urx (s : State) (f : Uart → Uart) : (s.onUart f).urx = s.urx := rfl
@[simp] theorem onUart_utx (s : State) (f : Uart → Uart) : (s.onUart f).utx = s.utx := rfl
@[simp] theorem onUart_srx (s : State) (f : Uart → Uart) : (s.onUart f).srx = s.srx := rfl
@[simp] theorem onUart_stx (s : State) (f : Uart → Uart) : (s.onUart f).stx = s.stx := rfl
@[simp] theorem onUart_uart (s : State) (f : Uart → Uart) : (s.onUart f).uart = f s.uart := rfl
@[simp] theorem onUart_spi (s : State) (f : Uart → Uart) : (s.onUart f).spi = s.spi := rfl
@[simp] theorem onUart_sfp (s : State) (f : Uart → Uart) : (s.onUart f).sfp = s.sfp := rfl
@[simp] theorem onUart_faults (s : State) (f : Uart → Uart) : (s.onUart f).faults = s.faults := rfl
@[simp] theorem onUart_refusals (s : State) (f : Uart → Uart) : (s.onUart f).refusals = s.refusals := rfl
@[simp] theorem onUart_trace (s : State) (f : Uart → Uart) : (s.onUart f).trace = s.trace := rfl
@[simp] theorem onUart_responses (s : State) (f : Uart → Uart) : (s.onUart f).responses = s.responses := rfl
@[simp] theorem onUart_draws (s : State) (f : Uart → Uart) : (s.onUart f).draws = s.draws := rfl
@[simp] theorem onUart_hostq (s : State) (f : Uart → Uart) : (s.onUart f).hostq = s.hostq := rfl
@[simp] theorem onUart_sched (s : State) (f : Uart → Uart) : (s.onUart f).sched = s.sched := rfl

/-! ### onSpi -/

@[simp] theorem onSpi_cfg (s : State) (f : Spi → Spi) : (s.onSpi f).cfg = s.cfg := rfl
@[simp] theorem onSpi_urx (s : State) (f : Spi → Spi) : (s.onSpi f).urx = s.urx := rfl
@[simp] theorem onSpi_utx (s : State) (f : Spi → Spi) : (s.onSpi f).utx = s.utx := rfl
@[simp] theorem onSpi_srx (s : State) (f : Spi → Spi) : (s.onSpi f).srx = s.srx := rfl
@[simp] theorem onSpi_stx (s : State) (f : Spi → Spi) : (s.onSpi f).stx = s.stx := rfl
@[simp] theorem onSpi_uart (s : State) (f : Spi → Spi) : (s.onSpi f).uart = s.uart := rfl
@[simp] theorem onSpi_spi (s : State) (f : Spi → Spi) : (s.onSpi f).spi = f s.spi := rfl
@[simp] theorem onSpi_sfp (s : State) (f : Spi → Spi) : (s.onSpi f).sfp = s.sfp := rfl
@[simp] theorem onSpi_faults (s : State) (f : Spi → Spi) : (s.onSpi f).faults = s.faults := rfl
@[simp] theorem onSpi_refusals (s : State) (f : Spi → Spi) : (s.onSpi f).refusals = s.refusals := rfl
@[simp] theorem onSpi_trace (s : State) (f : Spi → Spi) : (s.onSpi f).trace = s.trace := rfl
@[simp] theorem onSpi_responses (s : State) (f : Spi → Spi) : (s.onSpi f).responses = s.responses := rfl
@[simp] theorem onSpi_draws (s : State) (f : Spi → Spi) : (s.onSpi f).draws = s.draws := rfl
@[simp] theorem onSpi_hostq (s : State) (f : Spi → Spi) : (s.onSpi f).hostq = s.hostq := rfl
@[simp] theorem onSpi_sched (s : State) (f : Spi → Spi) : (s.onSpi f).sched = s.sched := rfl

/-! ### onSfp -/

@[simp] theorem onSfp_cfg (s : State) (f : Sfp → Sfp) : (s.onSfp f).cfg = s.cfg := rfl
@[simp] theorem onSfp_urx (s : State) (f : Sfp → Sfp) : (s.onSfp f).urx = s.urx := rfl
@[simp] theorem onSfp_utx (s : State) (f : Sfp → Sfp) : (s.onSfp f).utx = s.utx := rfl
@[simp] theorem onSfp_srx (s : State) (f : Sfp → Sfp) : (s.onSfp f).srx = s.srx := rfl
@[simp] theorem onSfp_stx (s : State) (f : Sfp → Sfp) : (s.onSfp f).stx = s.stx := rfl
@[simp] theorem onSfp_uart (s : State) (f : Sfp → Sfp) : (s.onSfp f).uart = s.uart := rfl
@[simp] theorem onSfp_spi (s : State) (f : Sfp → Sfp) : (s.onSfp f).spi = s.spi := rfl
@[simp] theorem onSfp_sfp (s : State) (f : Sfp → Sfp) : (s.onSfp f).sfp = f s.sfp := rfl
@[simp] theorem onSfp_faults (s : State) (f : Sfp → Sfp) : (s.onSfp f).faults = s.faults := rfl
@[simp] theorem onSfp_refusals (s : State) (f : Sfp → Sfp) : (s.onSfp f).refusals = s.refusals := rfl
@[simp] theorem onSfp_trace (s : State) (f : Sfp → Sfp) : (s.onSfp f).trace = s.trace := rfl
@[simp] theorem onSfp_responses (s : State) (f : Sfp → Sfp) : (s.onSfp f).responses = s.responses := rfl
@[simp] theorem onSfp_draws (s : State) (f : Sfp → Sfp) : (s.onSfp f).draws = s.draws := rfl
@[simp] theorem onSfp_hostq (s : State) (f : Sfp → Sfp) : (s.onSfp f).hostq = s.hostq := rfl
@[simp] theorem onSfp_sched (s : State) (f : Sfp → Sfp) : (s.onSfp f).sched = s.sched := rfl

/-! ### onRegs -/

@[simp] theorem onRegs_cfg (s : State) (f : SfpRegs → SfpRegs) : (s.onRegs f).cfg = s.cfg := rfl
@[simp] theorem onRegs_urx (s : State) (f : SfpRegs → SfpRegs) : (s.onRegs f).urx = s.urx := rfl
@[simp] theorem onRegs_utx (s : State) (f : SfpRegs → SfpRegs) : (s.onRegs f).utx = s.utx := rfl
@[simp] theorem onRegs_srx (s : State) (f : SfpRegs → SfpRegs) : (s.onRegs f).srx = s.srx := rfl
@[simp] theorem onRegs_stx (s : State) (f : SfpRegs → SfpRegs) : (s.onRegs f).stx = s.stx := rfl
@[simp] theorem onRegs_uart (s : State) (f : SfpRegs → SfpRegs) : (s.onRegs f).uart = s.uart := rfl
@[simp] theorem onRegs_spi (s : State) (f : SfpRegs → SfpRegs) : (s.onRegs f).spi = s.spi := rfl
@[simp] theorem onRegs_sfp (s : State) (f : SfpRegs → SfpRegs) : (s.onRegs f).sfp = { s.sfp with regs := f s.sfp.regs } := rfl
@[simp] theorem onRegs_faults (s : State) (f : SfpRegs → SfpRegs) : (s.onRegs f).faults = s.faults := rfl
@[simp] theorem onRegs_refusals (s : State) (f : SfpRegs → SfpRegs) : (s.onRegs f).refusals = s.refusals := rfl
@[simp] theorem onRegs_trace (s : State) (f : SfpRegs → SfpRegs) : (s.onRegs f).trace = s.trace := rfl
@[simp] theorem onRegs_responses (s : State) (f : SfpRegs → SfpRegs) : (s.onRegs f).responses = s.responses := rfl
@[simp] theorem onRegs_draws (s : State) (f : SfpRegs → SfpRegs) : (s.onRegs f).draws = s.draws := rfl
@[simp] theorem onRegs_hostq (s : State) (f : SfpRegs → SfpRegs) : (s.onRegs f).hostq = s.hostq := rfl
@[simp] theorem onRegs_sched (s : State) (f : SfpRegs → SfpRegs) : (s.onRegs f).sched = s.sched := rfl

/-! ### onSock -/

@[simp] theorem onSock_cfg (s : State) (n : SockIx) (f : Socket → Socket) : (s.onSock n f).cfg = s.cfg := rfl
@[simp] theorem onSock_urx (s : State) (n : SockIx) (f : Socket → Socket) : (s.onSock n f).urx = s.urx := rfl
@[simp] theorem onSock_utx (s : State) (n : SockIx) (f : Socket → Socket) : (s.onSock n f).utx = s.utx := rfl
@[simp] theorem onSock_srx (s : State) (n : SockIx) (f : Socket → Socket) : (s.onSock n f).srx = s.srx := rfl
@[simp] theorem onSock_stx (s : State) (n : SockIx) (f : Socket → Socket) : (s.onSock n f).stx = s.stx := rfl
@[simp] theorem onSock_uart (s : State) (n : SockIx) (f : Socket → Socket) : (s.onSock n f).uart = s.uart := rfl
@[simp] theorem onSock_spi (s : State) (n : SockIx) (f : Socket → Socket) : (s.onSock n f).spi = s.spi := rfl
@[simp] theorem onSock_faults (s : State) (n : SockIx) (f : Socket → Socket) : (s.onSock n f).faults = s.faults := rfl
@[simp] theorem onSock_refusals (s : State) (n : SockIx) (f : Socket → Socket) : (s.onSock n f).refusals = s.refusals := rfl
@[simp] theorem onSock_trace (s : State) (n : SockIx) (f : Socket → Socket) : (s.onSock n f).trace = s.trace := rfl
@[simp] theorem onSock_responses (s : State) (n : SockIx) (f : Socket → Socket) : (s.onSock n f).responses = s.responses := rfl
@[simp] theorem onSock_draws (s : State) (n : SockIx) (f : Socket → Socket) : (s.onSock n f).draws = s.draws := rfl
@[simp] theorem onSock_hostq (s : State) (n : SockIx) (f : Socket → Socket) : (s.onSock n f).hostq = s.hostq := rfl
@[simp] theorem onSock_sched (s : State) (n : SockIx) (f : Socket → Socket) : (s.onSock n f).sched = s.sched := rfl

/-! ### respond -/

@[simp] theorem respond_cfg (r : Response) (s : State) : (respond r s).cfg = s.cfg := rfl
@[simp] theorem respond_urx (r : Response) (s : State) : (respond r s).urx = s.urx := rfl
@[simp] theorem respond_utx (r : Response) (s : State) : (respond r s).utx = s.utx := rfl
@[simp] theorem respond_srx (r : Response) (s : State) : (respond r s).srx = s.srx := rfl
@[simp] theorem respond_stx (r : Response) (s : State) : (respond r s).stx = s.stx := rfl
@[simp] theorem respond_uart (r : Response) (s : State) : (respond r s).uart = s.uart := rfl
@[simp] theorem respond_spi (r : Response) (s : State) : (respond r s).spi = s.spi := rfl
@[simp] theorem respond_sfp (r : Response) (s : State) : (respond r s).sfp = s.sfp := rfl
@[simp] theorem respond_faults (r : Response) (s : State) : (respond r s).faults = s.faults := rfl
@[simp] theorem respond_refusals (r : Response) (s : State) : (respond r s).refusals = s.refusals := rfl
@[simp] theorem respond_trace (r : Response) (s : State) : (respond r s).trace = s.trace := rfl
@[simp] theorem respond_responses (r : Response) (s : State) : (respond r s).responses = s.responses ++ [r] := rfl
@[simp] theorem respond_draws (r : Response) (s : State) : (respond r s).draws = s.draws := rfl
@[simp] theorem respond_hostq (r : Response) (s : State) : (respond r s).hostq = s.hostq := rfl
@[simp] theorem respond_sched (r : Response) (s : State) : (respond r s).sched = s.sched := rfl

/-! ### hostRead -/

@[simp] theorem hostRead_cfg (v : Byte) (s : State) : (hostRead v s).cfg = s.cfg := rfl
@[simp] theorem hostRead_urx (v : Byte) (s : State) : (hostRead v s).urx = s.urx := rfl
@[simp] theorem hostRead_utx (v : Byte) (s : State) : (hostRead v s).utx = s.utx := rfl
@[simp] theorem hostRead_srx (v : Byte) (s : State) : (hostRead v s).srx = s.srx := rfl
@[simp] theorem hostRead_stx (v : Byte) (s : State) : (hostRead v s).stx = s.stx := rfl
@[simp] theorem hostRead_uart (v : Byte) (s : State) : (hostRead v s).uart = s.uart := rfl
@[simp] theorem hostRead_spi (v : Byte) (s : State) : (hostRead v s).spi = s.spi := rfl
@[simp] theorem hostRead_sfp (v : Byte) (s : State) : (hostRead v s).sfp = s.sfp := rfl
@[simp] theorem hostRead_faults (v : Byte) (s : State) : (hostRead v s).faults = s.faults := rfl
@[simp] theorem hostRead_refusals (v : Byte) (s : State) : (hostRead v s).refusals = s.refusals := rfl
@[simp] theorem hostRead_trace (v : Byte) (s : State) : (hostRead v s).trace = s.trace := rfl
@[simp] theorem hostRead_responses (v : Byte) (s : State) : (hostRead v s).responses = s.responses ++ [.hostRead v] := rfl
@[simp] theorem hostRead_draws (v : Byte) (s : State) : (hostRead v s).draws = s.draws := rfl
@[simp] theorem hostRead_hostq (v : Byte) (s : State) : (hostRead v s).hostq = s.hostq := rfl
@[simp] theorem hostRead_sched (v : Byte) (s : State) : (hostRead v s).sched = s.sched := rfl

/-! ### emit -/

@[simp] theorem emit_cfg (e : LineEvent) (s : State) : (emit e s).cfg = s.cfg := rfl
@[simp] theorem emit_urx (e : LineEvent) (s : State) : (emit e s).urx = s.urx := rfl
@[simp] theorem emit_utx (e : LineEvent) (s : State) : (emit e s).utx = s.utx := rfl
@[simp] theorem emit_srx (e : LineEvent) (s : State) : (emit e s).srx = s.srx := rfl
@[simp] theorem emit_stx (e : LineEvent) (s : State) : (emit e s).stx = s.stx := rfl
@[simp] theorem emit_uart (e : LineEvent) (s : State) : (emit e s).uart = s.uart := rfl
@[simp] theorem emit_spi (e : LineEvent) (s : State) : (emit e s).spi = s.spi := rfl
@[simp] theorem emit_sfp (e : LineEvent) (s : State) : (emit e s).sfp = s.sfp := rfl
@[simp] theorem emit_faults (e : LineEvent) (s : State) : (emit e s).faults = s.faults := rfl
@[simp] theorem emit_refusals (e : LineEvent) (s : State) : (emit e s).refusals = s.refusals := rfl
@[simp] theorem emit_trace (e : LineEvent) (s : State) : (emit e s).trace = s.trace ++ [e] := rfl
@[simp] theorem emit_responses (e : LineEvent) (s : State) : (emit e s).responses = s.responses := rfl
@[simp] theorem emit_draws (e : LineEvent) (s : State) : (emit e s).draws = s.draws := rfl
@[simp] theorem emit_hostq (e : LineEvent) (s : State) : (emit e s).hostq = s.hostq := rfl
@[simp] theorem emit_sched (e : LineEvent) (s : State) : (emit e s).sched = s.sched := rfl

/-! ### draw -/

@[simp] theorem draw_cfg (s : State) : ((draw s).2).cfg = s.cfg := rfl
@[simp] theorem draw_urx (s : State) : ((draw s).2).urx = s.urx := rfl
@[simp] theorem draw_utx (s : State) : ((draw s).2).utx = s.utx := rfl
@[simp] theorem draw_srx (s : State) : ((draw s).2).srx = s.srx := rfl
@[simp] theorem draw_stx (s : State) : ((draw s).2).stx = s.stx := rfl
@[simp] theorem draw_uart (s : State) : ((draw s).2).uart = s.uart := rfl
@[simp] theorem draw_spi (s : State) : ((draw s).2).spi = s.spi := rfl
@[simp] theorem draw_sfp (s : State) : ((draw s).2).sfp = s.sfp := rfl
@[simp] theorem draw_faults (s : State) : ((draw s).2).faults = s.faults := rfl
@[simp] theorem draw_refusals (s : State) : ((draw s).2).refusals = s.refusals := rfl
@[simp] theorem draw_trace (s : State) : ((draw s).2).trace = s.trace := rfl
@[simp] theorem draw_responses (s : State) : ((draw s).2).responses = s.responses := rfl
@[simp] theorem draw_draws (s : State) : ((draw s).2).draws = s.draws + 1 := rfl
@[simp] theorem draw_hostq (s : State) : ((draw s).2).hostq = s.hostq := rfl
@[simp] theorem draw_sched (s : State) : ((draw s).2).sched = s.sched := rfl

/-! ### drawChoice -/

@[simp] theorem drawChoice_cfg (s : State) : ((drawChoice s).2).cfg = s.cfg := rfl
@[simp] theorem drawChoice_urx (s : State) : ((drawChoice s).2).urx = s.urx := rfl
@[simp] theorem drawChoice_utx (s : State) : ((drawChoice s).2).utx = s.utx := rfl
@[simp] theorem drawChoice_srx (s : State) : ((drawChoice s).2).srx = s.srx := rfl
@[simp] theorem drawChoice_stx (s : State) : ((drawChoice s).2).stx = s.stx := rfl
@[simp] theorem drawChoice_uart (s : State) : ((drawChoice s).2).uart = s.uart := rfl
@[simp] theorem drawChoice_spi (s : State) : ((drawChoice s).2).spi = s.spi := rfl
@[simp] theorem drawChoice_sfp (s : State) : ((drawChoice s).2).sfp = s.sfp := rfl
@[simp] theorem drawChoice_faults (s : State) : ((drawChoice s).2).faults = s.faults := rfl
@[simp] theorem drawChoice_refusals (s : State) : ((drawChoice s).2).refusals = s.refusals := rfl
@[simp] theorem drawChoice_trace (s : State) : ((drawChoice s).2).trace = s.trace := rfl
@[simp] theorem drawChoice_responses (s : State) : ((drawChoice s).2).responses = s.responses := rfl
@[simp] theorem drawChoice_draws (s : State) : ((drawChoice s).2).draws = s.draws + 1 := rfl
@[simp] theorem drawChoice_hostq (s : State) : ((drawChoice s).2).hostq = s.hostq := rfl
@[simp] theorem drawChoice_sched (s : State) : ((drawChoice s).2).sched = s.sched := rfl

/-! ### endStep -/

@[simp] theorem endStep_cfg (s : State) : (endStep s).cfg = s.cfg := rfl
@[simp] theorem endStep_urx (s : State) : (endStep s).urx = s.urx := rfl
@[simp] theorem endStep_utx (s : State) : (endStep s).utx = s.utx := rfl
@[simp] theorem endStep_srx (s : State) : (endStep s).srx = s.srx := rfl
@[simp] theorem endStep_stx (s : State) : (endStep s).stx = s.stx := rfl
@[simp] theorem endStep_uart (s : State) : (endStep s).uart = s.uart := rfl
@[simp] theorem endStep_spi (s : State) : (endStep s).spi = s.spi := rfl
@[simp] theorem endStep_sfp (s : State) : (endStep s).sfp = s.sfp.edge (cs s s.cfg.sfpSs) := rfl
@[simp] theorem endStep_faults (s : State) : (endStep s).faults = s.faults := rfl
@[simp] theorem endStep_refusals (s : State) : (endStep s).refusals = s.refusals := rfl
@[simp] theorem endStep_trace (s : State) : (endStep s).trace = s.trace := rfl
@[simp] theorem endStep_responses (s : State) : (endStep s).responses = s.responses := rfl
@[simp] theorem endStep_draws (s : State) : (endStep s).draws = s.draws := rfl
@[simp] theorem endStep_hostq (s : State) : (endStep s).hostq = s.hostq := rfl
@[simp] theorem endStep_sched (s : State) : (endStep s).sched = s.sched := rfl

/-! ### setUartTxovf -/

@[simp] theorem setUartTxovf_cfg (s : State) : (setUartTxovf s).cfg = s.cfg := rfl
@[simp] theorem setUartTxovf_urx (s : State) : (setUartTxovf s).urx = s.urx := rfl
@[simp] theorem setUartTxovf_utx (s : State) : (setUartTxovf s).utx = s.utx := rfl
@[simp] theorem setUartTxovf_srx (s : State) : (setUartTxovf s).srx = s.srx := rfl
@[simp] theorem setUartTxovf_stx (s : State) : (setUartTxovf s).stx = s.stx := rfl
@[simp] theorem setUartTxovf_uart (s : State) : (setUartTxovf s).uart = { s.uart with flags := { s.uart.flags with txovf := true } } := rfl
@[simp] theorem setUartTxovf_spi (s : State) : (setUartTxovf s).spi = s.spi := rfl
@[simp] theorem setUartTxovf_sfp (s : State) : (setUartTxovf s).sfp = s.sfp := rfl
@[simp] theorem setUartTxovf_faults (s : State) : (setUartTxovf s).faults = s.faults := rfl
@[simp] theorem setUartTxovf_refusals (s : State) : (setUartTxovf s).refusals = s.refusals := rfl
@[simp] theorem setUartTxovf_trace (s : State) : (setUartTxovf s).trace = s.trace := rfl
@[simp] theorem setUartTxovf_responses (s : State) : (setUartTxovf s).responses = s.responses := rfl
@[simp] theorem setUartTxovf_draws (s : State) : (setUartTxovf s).draws = s.draws := rfl
@[simp] theorem setUartTxovf_hostq (s : State) : (setUartTxovf s).hostq = s.hostq := rfl
@[simp] theorem setUartTxovf_sched (s : State) : (setUartTxovf s).sched = s.sched := rfl

/-! ### setUartRxuf -/

@[simp] theorem setUartRxuf_cfg (s : State) : (setUartRxuf s).cfg = s.cfg := rfl
@[simp] theorem setUartRxuf_urx (s : State) : (setUartRxuf s).urx = s.urx := rfl
@[simp] theorem setUartRxuf_utx (s : State) : (setUartRxuf s).utx = s.utx := rfl
@[simp] theorem setUartRxuf_srx (s : State) : (setUartRxuf s).srx = s.srx := rfl
@[simp] theorem setUartRxuf_stx (s : State) : (setUartRxuf s).stx = s.stx := rfl
@[simp] theorem setUartRxuf_uart (s : State) : (setUartRxuf s).uart = { s.uart with flags := { s.uart.flags with rxuf := true } } := rfl
@[simp] theorem setUartRxuf_spi (s : State) : (setUartRxuf s).spi = s.spi := rfl
@[simp] theorem setUartRxuf_sfp (s : State) : (setUartRxuf s).sfp = s.sfp := rfl
@[simp] theorem setUartRxuf_faults (s : State) : (setUartRxuf s).faults = s.faults := rfl
@[simp] theorem setUartRxuf_refusals (s : State) : (setUartRxuf s).refusals = s.refusals := rfl
@[simp] theorem setUartRxuf_trace (s : State) : (setUartRxuf s).trace = s.trace := rfl
@[simp] theorem setUartRxuf_responses (s : State) : (setUartRxuf s).responses = s.responses := rfl
@[simp] theorem setUartRxuf_draws (s : State) : (setUartRxuf s).draws = s.draws := rfl
@[simp] theorem setUartRxuf_hostq (s : State) : (setUartRxuf s).hostq = s.hostq := rfl
@[simp] theorem setUartRxuf_sched (s : State) : (setUartRxuf s).sched = s.sched := rfl

/-! ### setUartCfgerr -/

@[simp] theorem setUartCfgerr_cfg (s : State) : (setUartCfgerr s).cfg = s.cfg := rfl
@[simp] theorem setUartCfgerr_urx (s : State) : (setUartCfgerr s).urx = s.urx := rfl
@[simp] theorem setUartCfgerr_utx (s : State) : (setUartCfgerr s).utx = s.utx := rfl
@[simp] theorem setUartCfgerr_srx (s : State) : (setUartCfgerr s).srx = s.srx := rfl
@[simp] theorem setUartCfgerr_stx (s : State) : (setUartCfgerr s).stx = s.stx := rfl
@[simp] theorem setUartCfgerr_uart (s : State) : (setUartCfgerr s).uart = { s.uart with err := { s.uart.err with cfgerr := true } } := rfl
@[simp] theorem setUartCfgerr_spi (s : State) : (setUartCfgerr s).spi = s.spi := rfl
@[simp] theorem setUartCfgerr_sfp (s : State) : (setUartCfgerr s).sfp = s.sfp := rfl
@[simp] theorem setUartCfgerr_faults (s : State) : (setUartCfgerr s).faults = s.faults := rfl
@[simp] theorem setUartCfgerr_refusals (s : State) : (setUartCfgerr s).refusals = s.refusals := rfl
@[simp] theorem setUartCfgerr_trace (s : State) : (setUartCfgerr s).trace = s.trace := rfl
@[simp] theorem setUartCfgerr_responses (s : State) : (setUartCfgerr s).responses = s.responses := rfl
@[simp] theorem setUartCfgerr_draws (s : State) : (setUartCfgerr s).draws = s.draws := rfl
@[simp] theorem setUartCfgerr_hostq (s : State) : (setUartCfgerr s).hostq = s.hostq := rfl
@[simp] theorem setUartCfgerr_sched (s : State) : (setUartCfgerr s).sched = s.sched := rfl

/-! ### setSpiTxovf -/

@[simp] theorem setSpiTxovf_cfg (s : State) : (setSpiTxovf s).cfg = s.cfg := rfl
@[simp] theorem setSpiTxovf_urx (s : State) : (setSpiTxovf s).urx = s.urx := rfl
@[simp] theorem setSpiTxovf_utx (s : State) : (setSpiTxovf s).utx = s.utx := rfl
@[simp] theorem setSpiTxovf_srx (s : State) : (setSpiTxovf s).srx = s.srx := rfl
@[simp] theorem setSpiTxovf_stx (s : State) : (setSpiTxovf s).stx = s.stx := rfl
@[simp] theorem setSpiTxovf_uart (s : State) : (setSpiTxovf s).uart = s.uart := rfl
@[simp] theorem setSpiTxovf_spi (s : State) : (setSpiTxovf s).spi = { s.spi with flags := { s.spi.flags with txovf := true } } := rfl
@[simp] theorem setSpiTxovf_sfp (s : State) : (setSpiTxovf s).sfp = s.sfp := rfl
@[simp] theorem setSpiTxovf_faults (s : State) : (setSpiTxovf s).faults = s.faults := rfl
@[simp] theorem setSpiTxovf_refusals (s : State) : (setSpiTxovf s).refusals = s.refusals := rfl
@[simp] theorem setSpiTxovf_trace (s : State) : (setSpiTxovf s).trace = s.trace := rfl
@[simp] theorem setSpiTxovf_responses (s : State) : (setSpiTxovf s).responses = s.responses := rfl
@[simp] theorem setSpiTxovf_draws (s : State) : (setSpiTxovf s).draws = s.draws := rfl
@[simp] theorem setSpiTxovf_hostq (s : State) : (setSpiTxovf s).hostq = s.hostq := rfl
@[simp] theorem setSpiTxovf_sched (s : State) : (setSpiTxovf s).sched = s.sched := rfl

/-! ### setSpiRxuf -/

@[simp] theorem setSpiRxuf_cfg (s : State) : (setSpiRxuf s).cfg = s.cfg := rfl
@[simp] theorem setSpiRxuf_urx (s : State) : (setSpiRxuf s).urx = s.urx := rfl
@[simp] theorem setSpiRxuf_utx (s : State) : (setSpiRxuf s).utx = s.utx := rfl
@[simp] theorem setSpiRxuf_srx (s : State) : (setSpiRxuf s).srx = s.srx := rfl
@[simp] theorem setSpiRxuf_stx (s : State) : (setSpiRxuf s).stx = s.stx := rfl
@[simp] theorem setSpiRxuf_uart (s : State) : (setSpiRxuf s).uart = s.uart := rfl
@[simp] theorem setSpiRxuf_spi (s : State) : (setSpiRxuf s).spi = { s.spi with flags := { s.spi.flags with rxuf := true } } := rfl
@[simp] theorem setSpiRxuf_sfp (s : State) : (setSpiRxuf s).sfp = s.sfp := rfl
@[simp] theorem setSpiRxuf_faults (s : State) : (setSpiRxuf s).faults = s.faults := rfl
@[simp] theorem setSpiRxuf_refusals (s : State) : (setSpiRxuf s).refusals = s.refusals := rfl
@[simp] theorem setSpiRxuf_trace (s : State) : (setSpiRxuf s).trace = s.trace := rfl
@[simp] theorem setSpiRxuf_responses (s : State) : (setSpiRxuf s).responses = s.responses := rfl
@[simp] theorem setSpiRxuf_draws (s : State) : (setSpiRxuf s).draws = s.draws := rfl
@[simp] theorem setSpiRxuf_hostq (s : State) : (setSpiRxuf s).hostq = s.hostq := rfl
@[simp] theorem setSpiRxuf_sched (s : State) : (setSpiRxuf s).sched = s.sched := rfl

/-! ### setSpiWcol -/

@[simp] theorem setSpiWcol_cfg (s : State) : (setSpiWcol s).cfg = s.cfg := rfl
@[simp] theorem setSpiWcol_urx (s : State) : (setSpiWcol s).urx = s.urx := rfl
@[simp] theorem setSpiWcol_utx (s : State) : (setSpiWcol s).utx = s.utx := rfl
@[simp] theorem setSpiWcol_srx (s : State) : (setSpiWcol s).srx = s.srx := rfl
@[simp] theorem setSpiWcol_stx (s : State) : (setSpiWcol s).stx = s.stx := rfl
@[simp] theorem setSpiWcol_uart (s : State) : (setSpiWcol s).uart = s.uart := rfl
@[simp] theorem setSpiWcol_spi (s : State) : (setSpiWcol s).spi = { s.spi with flags := { s.spi.flags with wcol := true } } := rfl
@[simp] theorem setSpiWcol_sfp (s : State) : (setSpiWcol s).sfp = s.sfp := rfl
@[simp] theorem setSpiWcol_faults (s : State) : (setSpiWcol s).faults = s.faults := rfl
@[simp] theorem setSpiWcol_refusals (s : State) : (setSpiWcol s).refusals = s.refusals := rfl
@[simp] theorem setSpiWcol_trace (s : State) : (setSpiWcol s).trace = s.trace := rfl
@[simp] theorem setSpiWcol_responses (s : State) : (setSpiWcol s).responses = s.responses := rfl
@[simp] theorem setSpiWcol_draws (s : State) : (setSpiWcol s).draws = s.draws := rfl
@[simp] theorem setSpiWcol_hostq (s : State) : (setSpiWcol s).hostq = s.hostq := rfl
@[simp] theorem setSpiWcol_sched (s : State) : (setSpiWcol s).sched = s.sched := rfl

/-! ### setSpiTc -/

@[simp] theorem setSpiTc_cfg (s : State) : (setSpiTc s).cfg = s.cfg := rfl
@[simp] theorem setSpiTc_urx (s : State) : (setSpiTc s).urx = s.urx := rfl
@[simp] theorem setSpiTc_utx (s : State) : (setSpiTc s).utx = s.utx := rfl
@[simp] theorem setSpiTc_srx (s : State) : (setSpiTc s).srx = s.srx := rfl
@[simp] theorem setSpiTc_stx (s : State) : (setSpiTc s).stx = s.stx := rfl
@[simp] theorem setSpiTc_uart (s : State) : (setSpiTc s).uart = s.uart := rfl
@[simp] theorem setSpiTc_spi (s : State) : (setSpiTc s).spi = { s.spi with flags := { s.spi.flags with tc := true } } := rfl
@[simp] theorem setSpiTc_sfp (s : State) : (setSpiTc s).sfp = s.sfp := rfl
@[simp] theorem setSpiTc_faults (s : State) : (setSpiTc s).faults = s.faults := rfl
@[simp] theorem setSpiTc_refusals (s : State) : (setSpiTc s).refusals = s.refusals := rfl
@[simp] theorem setSpiTc_trace (s : State) : (setSpiTc s).trace = s.trace := rfl
@[simp] theorem setSpiTc_responses (s : State) : (setSpiTc s).responses = s.responses := rfl
@[simp] theorem setSpiTc_draws (s : State) : (setSpiTc s).draws = s.draws := rfl
@[simp] theorem setSpiTc_hostq (s : State) : (setSpiTc s).hostq = s.hostq := rfl
@[simp] theorem setSpiTc_sched (s : State) : (setSpiTc s).sched = s.sched := rfl

/-! ### setSpiCfgerr -/

@[simp] theorem setSpiCfgerr_cfg (s : State) : (setSpiCfgerr s).cfg = s.cfg := rfl
@[simp] theorem setSpiCfgerr_urx (s : State) : (setSpiCfgerr s).urx = s.urx := rfl
@[simp] theorem setSpiCfgerr_utx (s : State) : (setSpiCfgerr s).utx = s.utx := rfl
@[simp] theorem setSpiCfgerr_srx (s : State) : (setSpiCfgerr s).srx = s.srx := rfl
@[simp] theorem setSpiCfgerr_stx (s : State) : (setSpiCfgerr s).stx = s.stx := rfl
@[simp] theorem setSpiCfgerr_uart (s : State) : (setSpiCfgerr s).uart = s.uart := rfl
@[simp] theorem setSpiCfgerr_spi (s : State) : (setSpiCfgerr s).spi = { s.spi with flags := { s.spi.flags with cfgerr := true } } := rfl
@[simp] theorem setSpiCfgerr_sfp (s : State) : (setSpiCfgerr s).sfp = s.sfp := rfl
@[simp] theorem setSpiCfgerr_faults (s : State) : (setSpiCfgerr s).faults = s.faults := rfl
@[simp] theorem setSpiCfgerr_refusals (s : State) : (setSpiCfgerr s).refusals = s.refusals := rfl
@[simp] theorem setSpiCfgerr_trace (s : State) : (setSpiCfgerr s).trace = s.trace := rfl
@[simp] theorem setSpiCfgerr_responses (s : State) : (setSpiCfgerr s).responses = s.responses := rfl
@[simp] theorem setSpiCfgerr_draws (s : State) : (setSpiCfgerr s).draws = s.draws := rfl
@[simp] theorem setSpiCfgerr_hostq (s : State) : (setSpiCfgerr s).hostq = s.hostq := rfl
@[simp] theorem setSpiCfgerr_sched (s : State) : (setSpiCfgerr s).sched = s.sched := rfl

/-! ### raiseFault -/

@[simp] theorem raiseFault_cfg (f : Fault) (s : State) : (raiseFault f s).cfg = s.cfg := by unfold raiseFault; split <;> rfl
@[simp] theorem raiseFault_urx (f : Fault) (s : State) : (raiseFault f s).urx = s.urx := by unfold raiseFault; split <;> rfl
@[simp] theorem raiseFault_utx (f : Fault) (s : State) : (raiseFault f s).utx = s.utx := by unfold raiseFault; split <;> rfl
@[simp] theorem raiseFault_srx (f : Fault) (s : State) : (raiseFault f s).srx = s.srx := by unfold raiseFault; split <;> rfl
@[simp] theorem raiseFault_stx (f : Fault) (s : State) : (raiseFault f s).stx = s.stx := by unfold raiseFault; split <;> rfl
@[simp] theorem raiseFault_uart (f : Fault) (s : State) : (raiseFault f s).uart = s.uart := by unfold raiseFault; split <;> rfl
@[simp] theorem raiseFault_spi (f : Fault) (s : State) : (raiseFault f s).spi = s.spi := by unfold raiseFault; split <;> rfl
@[simp] theorem raiseFault_sfp (f : Fault) (s : State) : (raiseFault f s).sfp = s.sfp := by unfold raiseFault; split <;> rfl
@[simp] theorem raiseFault_refusals (f : Fault) (s : State) : (raiseFault f s).refusals = s.refusals := by unfold raiseFault; split <;> rfl
@[simp] theorem raiseFault_trace (f : Fault) (s : State) : (raiseFault f s).trace = s.trace := by unfold raiseFault; split <;> rfl
@[simp] theorem raiseFault_responses (f : Fault) (s : State) : (raiseFault f s).responses = s.responses := by unfold raiseFault; split <;> rfl
@[simp] theorem raiseFault_draws (f : Fault) (s : State) : (raiseFault f s).draws = s.draws := by unfold raiseFault; split <;> rfl
@[simp] theorem raiseFault_hostq (f : Fault) (s : State) : (raiseFault f s).hostq = s.hostq := by unfold raiseFault; split <;> rfl
@[simp] theorem raiseFault_sched (f : Fault) (s : State) : (raiseFault f s).sched = s.sched := by unfold raiseFault; split <;> rfl

/-! ### refuse -/

@[simp] theorem refuse_cfg (r : Refusal) (s : State) : (refuse r s).cfg = s.cfg := by unfold refuse; split <;> rfl
@[simp] theorem refuse_urx (r : Refusal) (s : State) : (refuse r s).urx = s.urx := by unfold refuse; split <;> rfl
@[simp] theorem refuse_utx (r : Refusal) (s : State) : (refuse r s).utx = s.utx := by unfold refuse; split <;> rfl
@[simp] theorem refuse_srx (r : Refusal) (s : State) : (refuse r s).srx = s.srx := by unfold refuse; split <;> rfl
@[simp] theorem refuse_stx (r : Refusal) (s : State) : (refuse r s).stx = s.stx := by unfold refuse; split <;> rfl
@[simp] theorem refuse_uart (r : Refusal) (s : State) : (refuse r s).uart = s.uart := by unfold refuse; split <;> rfl
@[simp] theorem refuse_spi (r : Refusal) (s : State) : (refuse r s).spi = s.spi := by unfold refuse; split <;> rfl
@[simp] theorem refuse_sfp (r : Refusal) (s : State) : (refuse r s).sfp = s.sfp := by unfold refuse; split <;> rfl
@[simp] theorem refuse_faults (r : Refusal) (s : State) : (refuse r s).faults = s.faults := by unfold refuse; split <;> rfl
@[simp] theorem refuse_trace (r : Refusal) (s : State) : (refuse r s).trace = s.trace := by unfold refuse; split <;> rfl
@[simp] theorem refuse_responses (r : Refusal) (s : State) : (refuse r s).responses = s.responses := by unfold refuse; split <;> rfl
@[simp] theorem refuse_draws (r : Refusal) (s : State) : (refuse r s).draws = s.draws := by unfold refuse; split <;> rfl
@[simp] theorem refuse_hostq (r : Refusal) (s : State) : (refuse r s).hostq = s.hostq := by unfold refuse; split <;> rfl
@[simp] theorem refuse_sched (r : Refusal) (s : State) : (refuse r s).sched = s.sched := by unfold refuse; split <;> rfl

/-! ### setRing -/

@[simp] theorem setRing_cfg (s : State) (q : RingId) (r : Ring) : (s.setRing q r).cfg = s.cfg := by cases q <;> rfl
@[simp] theorem setRing_uart (s : State) (q : RingId) (r : Ring) : (s.setRing q r).uart = s.uart := by cases q <;> rfl
@[simp] theorem setRing_spi (s : State) (q : RingId) (r : Ring) : (s.setRing q r).spi = s.spi := by cases q <;> rfl
@[simp] theorem setRing_sfp (s : State) (q : RingId) (r : Ring) : (s.setRing q r).sfp = s.sfp := by cases q <;> rfl
@[simp] theorem setRing_faults (s : State) (q : RingId) (r : Ring) : (s.setRing q r).faults = s.faults := by cases q <;> rfl
@[simp] theorem setRing_refusals (s : State) (q : RingId) (r : Ring) : (s.setRing q r).refusals = s.refusals := by cases q <;> rfl
@[simp] theorem setRing_trace (s : State) (q : RingId) (r : Ring) : (s.setRing q r).trace = s.trace := by cases q <;> rfl
@[simp] theorem setRing_responses (s : State) (q : RingId) (r : Ring) : (s.setRing q r).responses = s.responses := by cases q <;> rfl
@[simp] theorem setRing_draws (s : State) (q : RingId) (r : Ring) : (s.setRing q r).draws = s.draws := by cases q <;> rfl
@[simp] theorem setRing_hostq (s : State) (q : RingId) (r : Ring) : (s.setRing q r).hostq = s.hostq := by cases q <;> rfl
@[simp] theorem setRing_sched (s : State) (q : RingId) (r : Ring) : (s.setRing q r).sched = s.sched := by cases q <;> rfl

/-! ### Rings by name -/

@[simp] theorem ring_urx (s : State) : s.ring .urx = s.urx := rfl
@[simp] theorem ring_utx (s : State) : s.ring .utx = s.utx := rfl
@[simp] theorem ring_srx (s : State) : s.ring .srx = s.srx := rfl
@[simp] theorem ring_stx (s : State) : s.ring .stx = s.stx := rfl
@[simp] theorem setRing_urx (s : State) (r : Ring) : s.setRing .urx r = { s with urx := r } := rfl
@[simp] theorem setRing_utx (s : State) (r : Ring) : s.setRing .utx r = { s with utx := r } := rfl
@[simp] theorem setRing_srx (s : State) (r : Ring) : s.setRing .srx r = { s with srx := r } := rfl
@[simp] theorem setRing_stx (s : State) (r : Ring) : s.setRing .stx r = { s with stx := r } := rfl

/-- The ring put in place is the ring there. -/
theorem ring_setRing_same (s : State) (q : RingId) (r : Ring) : (s.setRing q r).ring q = r := by
  cases q <;> rfl

/-- Another ring is left alone. -/
theorem ring_setRing_other (s : State) (p q : RingId) (r : Ring) (h : p ≠ q) :
    (s.setRing q r).ring p = s.ring p := by
  cases p <;> cases q <;> first | rfl | exact absurd rfl h

/-! ### Sockets by number -/

/-- The updated socket. -/
@[simp] theorem sock_onSock_same (s : State) (n : SockIx) (f : Socket → Socket) :
    (s.onSock n f).sock n = f (s.sock n) := by
  simp [State.sock, State.onSock, State.onRegs, State.onSfp, Vector.get_eq_getElem]

/-- Another socket is left alone. -/
theorem sock_onSock_other (s : State) (m n : SockIx) (f : Socket → Socket) (h : m ≠ n) :
    (s.onSock n f).sock m = s.sock m := by
  have : (n : Nat) ≠ m := fun e => h (Fin.ext e.symm)
  simp [State.sock, State.onSock, State.onRegs, State.onSfp, Vector.get_eq_getElem, this]

/-- What a socket update leaves of the SFP: everything but the sockets. -/
theorem sfp_onSock (s : State) (n : SockIx) (f : Socket → Socket) :
    (s.onSock n f).sfp = { s.sfp with regs := { s.sfp.regs with
      socks := s.sfp.regs.socks.set n (f (s.sock n)) } } := rfl

end Laws

end Sys2Proof.Machine
end

