-- ==== Sys2Proof/Laws/Outcomes.lean ====
section
/-!
SUPPORT. The fault and refusal records (R13, R37): what recording does, and that nothing is lost.
-/

namespace Sys2Proof.Machine.Laws

/-- A raised fault is in the record. -/
@[simp] theorem mem_raiseFault (f : Fault) (s : State) : f ∈ (raiseFault f s).faults := by
  unfold raiseFault; split <;> simp_all

/-- Raising a fault loses none. -/
theorem faults_subset_raiseFault (f : Fault) (s : State) : s.faults ⊆ (raiseFault f s).faults := by
  unfold raiseFault; split
  · exact fun _ h => h
  · simp

/-- The record after a fault: that fault and what was there. -/
theorem mem_raiseFault_iff (f g : Fault) (s : State) : g ∈ (raiseFault f s).faults ↔ g = f ∨ g ∈ s.faults := by
  unfold raiseFault
  split
  · exact ⟨Or.inr, fun h => h.elim (fun e => e ▸ ‹_›) id⟩
  · simp [or_comm]

/-- A recorded refusal is in the record. -/
@[simp] theorem mem_refuse (r : Refusal) (s : State) : r ∈ (refuse r s).refusals := by
  unfold refuse; split <;> simp_all

/-- Refusing loses no refusal. -/
theorem refusals_subset_refuse (r : Refusal) (s : State) : s.refusals ⊆ (refuse r s).refusals := by
  unfold refuse; split
  · exact fun _ h => h
  · simp

/-- The record after a refusal: that refusal and what was there. -/
theorem mem_refuse_iff (r q : Refusal) (s : State) : q ∈ (refuse r s).refusals ↔ q = r ∨ q ∈ s.refusals := by
  unfold refuse
  split
  · exact ⟨Or.inr, fun h => h.elim (fun e => e ▸ ‹_›) id⟩
  · simp [or_comm]

/-- `check_total()` does nothing where both totals are at most 16, and raises its fault elsewhere (R151). -/
theorem checkTotal_cases (s : State) :
    (rxTotal s ≤ 16 ∧ txTotal s ≤ 16 ∧ checkTotal s = s) ∨
    ((16 < rxTotal s ∨ 16 < txTotal s) ∧ checkTotal s = raiseFault .sfpBufsizeTotal s) := by
  by_cases h : 16 < rxTotal s ∨ 16 < txTotal s
  · exact Or.inr ⟨h, by simp [checkTotal, h]⟩
  · exact Or.inl ⟨by omega, by omega, by simp [checkTotal, h]⟩

/-- Raising a fault changes the fault record alone. -/
theorem raiseFault_eq (f : Fault) (s : State) :
    raiseFault f s = { s with faults := (raiseFault f s).faults } := by
  unfold raiseFault; split <;> rfl

/-- Refusing changes the refusal record alone. -/
theorem refuse_eq (r : Refusal) (s : State) :
    refuse r s = { s with refusals := (refuse r s).refusals } := by
  unfold refuse; split <;> rfl

/-- `check_total()` changes the fault record alone. -/
theorem checkTotal_eq (s : State) : checkTotal s = { s with faults := (checkTotal s).faults } := by
  rcases checkTotal_cases s with ⟨_, _, h⟩ | ⟨_, h⟩
  · rw [h]
  · rw [h, raiseFault_eq]

/-- The states that differ from `s` in the SFP, the records and the draws at most: what a byte slot, a frame
or a command can reach. -/
def SfpOnly (s t : State) : Prop :=
  t = { s with sfp := t.sfp, faults := t.faults, refusals := t.refusals, draws := t.draws } ∧
  s.faults ⊆ t.faults ∧ s.refusals ⊆ t.refusals

theorem SfpOnly.refl (s : State) : SfpOnly s s := ⟨rfl, fun _ h => h, fun _ h => h⟩

theorem SfpOnly.trans {s t u : State} (h : SfpOnly s t) (k : SfpOnly t u) : SfpOnly s u := by
  refine ⟨?_, fun _ m => k.2.1 (h.2.1 m), fun _ m => k.2.2 (h.2.2 m)⟩
  rw [k.1, h.1]

theorem SfpOnly.onSfp (s : State) (f : Sfp → Sfp) : SfpOnly s (s.onSfp f) :=
  ⟨rfl, fun _ h => h, fun _ h => h⟩

theorem SfpOnly.onRegs (s : State) (f : SfpRegs → SfpRegs) : SfpOnly s (s.onRegs f) :=
  ⟨rfl, fun _ h => h, fun _ h => h⟩

theorem SfpOnly.onSock (s : State) (n : SockIx) (f : Socket → Socket) : SfpOnly s (s.onSock n f) :=
  ⟨rfl, fun _ h => h, fun _ h => h⟩

theorem SfpOnly.raiseFault (f : Fault) (s : State) : SfpOnly s (raiseFault f s) :=
  ⟨by rw [raiseFault_eq], faults_subset_raiseFault f s, by simp⟩

theorem SfpOnly.refuse (r : Refusal) (s : State) : SfpOnly s (refuse r s) :=
  ⟨by rw [refuse_eq], by simp, refusals_subset_refuse r s⟩

theorem SfpOnly.draw (s : State) : SfpOnly s (draw s).2 := ⟨rfl, fun _ h => h, fun _ h => h⟩

theorem SfpOnly.drawChoice (s : State) : SfpOnly s (drawChoice s).2 := ⟨rfl, fun _ h => h, fun _ h => h⟩

theorem SfpOnly.checkTotal (s : State) : SfpOnly s (checkTotal s) := by
  rcases checkTotal_cases s with ⟨_, _, h⟩ | ⟨_, h⟩ <;> rw [h]
  · exact .refl s
  · exact .raiseFault _ s

end Sys2Proof.Machine.Laws
end

