-- ==== Sys2Proof/Laws/Slots.lean ====
section
/-!
SUPPORT. What the SFP's operations can reach (R132 to R153): the SFP, the records and the draws, nothing else;
and what one byte slot does in each phase.
-/

namespace Sys2Proof.Machine.Laws

theorem sfpOnly_writeCr (n : SockIx) (c : Byte) (s : State) : SfpOnly s (writeCr n c s) := by
  unfold writeCr
  split
  · exact .refl s
  · split
    · exact .raiseFault _ s
    · split
      · exact (SfpOnly.checkTotal s).trans (.onSock _ n _)
      · exact .refuse _ s

theorem sfpOnly_sockWrite (n : SockIx) (r : SockReg) (v : Byte) (s : State) :
    SfpOnly s (sockWrite n r v s) := by
  cases r
  case cr => exact sfpOnly_writeCr n v s
  case sr => exact .refl s
  case rxsz =>
    simp only [sockWrite, writeRxsz]
    split
    · exact .raiseFault _ s
    · split
      · exact .refl s
      · exact .onSock s n _
  case txsz =>
    simp only [sockWrite, writeTxsz]
    split
    · exact .raiseFault _ s
    · split
      · exact .refl s
      · exact .onSock s n _
  all_goals (simp only [sockWrite]; exact .onSock s n _)

theorem sfpOnly_commonWrite (r : CommonReg) (v : Byte) (s : State) : SfpOnly s (commonWrite r v s) := by
  cases r
  case mr =>
    simp only [commonWrite, writeMr]
    split
    · exact .onSfp s _
    · exact .onRegs s _
  all_goals (simp only [commonWrite]; exact .onRegs s _)

theorem sfpOnly_txBufWrite (n : SockIx) (off : Word16) (v : Byte) (s : State) :
    SfpOnly s (txBufWrite n off v s) := by
  unfold txBufWrite
  split
  · exact (SfpOnly.checkTotal s).trans (.refuse _ _)
  · exact (SfpOnly.checkTotal s).trans (.onSock _ n _)

theorem sfpOnly_memWrite (b : Bsb) (off : Word16) (v : Byte) (s : State) :
    SfpOnly s (memWrite b off v s) := by
  unfold memWrite
  split
  · split
    · split
      · exact sfpOnly_commonWrite _ v s
      · exact .refuse _ s
    · exact .raiseFault _ s
  · split
    · exact sfpOnly_sockWrite _ _ v s
    · exact .refuse _ s
  · exact sfpOnly_txBufWrite _ off v s
  · exact .refuse _ s

theorem sfpOnly_bufRead (sz : Byte) (m : Memory) (off : Word16) (s : State) :
    SfpOnly s (bufRead sz m off s).2 := by
  unfold bufRead
  split
  · exact ((SfpOnly.checkTotal s).trans (.refuse _ _)).trans (.draw _)
  · split
    · exact .checkTotal s
    · exact (SfpOnly.checkTotal s).trans (.draw _)

theorem sfpOnly_memRead (b : Bsb) (off : Word16) (s : State) : SfpOnly s (memRead b off s).2 := by
  unfold memRead
  split
  · split
    · split
      · exact .refl s
      · exact (SfpOnly.refuse _ s).trans (.draw _)
    · exact (SfpOnly.raiseFault _ s).trans (.draw _)
  · split
    · exact .refl s
    · exact (SfpOnly.refuse _ s).trans (.draw _)
  · exact sfpOnly_bufRead _ _ off s
  · exact sfpOnly_bufRead _ _ off s

theorem sfpOnly_dataSlot (b : Byte) (s : State) : SfpOnly s (dataSlot b s).2 := by
  unfold dataSlot
  split
  · exact ((sfpOnly_memWrite _ _ b s).trans (.draw _)).trans (.onSfp _ _)
  · exact (sfpOnly_memRead _ _ s).trans (.onSfp _ _)

theorem sfpOnly_ctrlSlot (b : Byte) (s : State) : SfpOnly s (ctrlSlot b s) := by
  unfold ctrlSlot
  split
  · exact (SfpOnly.raiseFault _ s).trans (.onSfp _ _)
  · exact .onSfp s _

/-- A byte slot reaches the SFP, the records and the draws, and nothing else (R133). -/
theorem sfpOnly_sfpSlot (b : Byte) (s : State) : SfpOnly s (sfpSlot b s).2 := by
  unfold sfpSlot
  split
  · exact (SfpOnly.raiseFault _ s).trans (.draw _)
  · split
    · split
      · exact .draw s
      · exact (SfpOnly.onSfp s _).trans (.draw _)
      · exact (SfpOnly.onSfp s _).trans (.draw _)
      · exact (sfpOnly_ctrlSlot b s).trans (.draw _)
      · exact sfpOnly_dataSlot b s
    · exact (SfpOnly.raiseFault _ s).trans (.draw _)

/-- So do the slots of a whole assertion. -/
theorem sfpOnly_slots (bytes : List Byte) (s : State) : SfpOnly s (slots bytes s).2 := by
  induction bytes generalizing s with
  | nil => exact .refl s
  | cons b rest ih => exact (sfpOnly_sfpSlot b s).trans (ih _)

/-- One MISO byte for each slot. -/
@[simp] theorem slots_length (bytes : List Byte) (s : State) : (slots bytes s).1.length = bytes.length := by
  induction bytes generalizing s with
  | nil => rfl
  | cons b rest ih => simp [slots, ih]

/-- The slots of two sequences one after the other. -/
theorem slots_append (xs ys : List Byte) (s : State) :
    slots (xs ++ ys) s =
      ((slots xs s).1 ++ (slots ys (slots xs s).2).1, (slots ys (slots xs s).2).2) := by
  induction xs generalizing s with
  | nil => rfl
  | cons b rest ih => simp [slots, ih]

/-- The link check looks at the SPI master alone. -/
theorem linkOk_congr {s t : State} (h : t.spi = s.spi) : linkOk t = linkOk s := by simp [linkOk, h]

/-- A chip-select level looks at the SPI master alone. -/
theorem cs_congr {s t : State} (h : t.spi = s.spi) (i : Nat) : cs t i = cs s i := by simp [cs, h]

/-- What a slot leaves of the SPI master. -/
theorem SfpOnly.spi_eq {s t : State} (h : SfpOnly s t) : t.spi = s.spi := by rw [h.1]

/-- What a slot leaves of the parameters. -/
theorem SfpOnly.cfg_eq {s t : State} (h : SfpOnly s t) : t.cfg = s.cfg := by rw [h.1]

end Sys2Proof.Machine.Laws
end

