-- ==== Sys2Proof/Laws/Words.lean ====
section
/-!
SUPPORT. What the fields of an encoded word are: HREQ (R58, R59), RBOP (R61), the control byte (R63, R64).
-/

namespace Sys2Proof.Laws

/-! ### HREQ -/

theorem hreqWord_kind (a b : Bool) (o v : Byte) : (hreqWord a b o v).getLsbD 17 = a := by
  unfold hreqWord
  simp only [BitVec.getLsbD_append]
  simp

theorem hreqWord_w (a b : Bool) (o v : Byte) : (hreqWord a b o v).getLsbD 16 = b := by
  unfold hreqWord
  simp only [BitVec.getLsbD_append]
  simp

theorem hreqWord_data (a b : Bool) (o v : Byte) : (hreqWord a b o v).extractLsb' 0 8 = v := by
  unfold hreqWord
  apply BitVec.eq_of_getLsbD_eq
  intro i hi
  simp only [BitVec.getLsbD_extractLsb', BitVec.getLsbD_append]
  simp [hi]

theorem hreqWord_off (a b : Bool) (o v : Byte) : (hreqWord a b o v).extractLsb' 8 8 = o := by
  unfold hreqWord
  apply BitVec.eq_of_getLsbD_eq
  intro i hi
  simp only [BitVec.getLsbD_extractLsb', BitVec.getLsbD_append]
  simp [hi]

/-- The word of a write decodes by its offset and data (R58). -/
theorem decodeHreq_write (o v : Byte) : decodeHreq (hreqWord false true o v) = decodeWrite o v := by
  unfold decodeHreq
  rw [hreqWord_kind, hreqWord_w, hreqWord_data, hreqWord_off]
  rfl

/-- The word of a read decodes by its offset alone (R58). -/
theorem decodeHreq_read (o v : Byte) : decodeHreq (hreqWord false false o v) = decodeRead o := by
  unfold decodeHreq
  rw [hreqWord_kind, hreqWord_w, hreqWord_off]
  rfl

/-- The word of a pin operation decodes by its 17 low bits (R59). -/
theorem decodeHreq_pin (w : BitVec 17) : decodeHreq (pinWord w) = decodePin w := by
  have h : (pinWord w).getLsbD 17 = true := by
    unfold pinWord
    simp only [BitVec.getLsbD_append]
    simp
  have k : (pinWord w).extractLsb' 0 17 = w := by
    unfold pinWord
    apply BitVec.eq_of_getLsbD_eq
    intro i hi
    simp only [BitVec.getLsbD_extractLsb', BitVec.getLsbD_append]
    simp [hi]
  unfold decodeHreq
  rw [h, k]
  rfl

/-! ### RBOP -/

theorem rbopWord_op (op : BitVec 2) (v : Byte) : (rbopWord op v).extractLsb' 8 2 = op := by
  unfold rbopWord
  apply BitVec.eq_of_getLsbD_eq
  intro i hi
  simp only [BitVec.getLsbD_extractLsb', BitVec.getLsbD_append]
  simp [hi]

theorem rbopWord_data (op : BitVec 2) (v : Byte) : (rbopWord op v).extractLsb' 0 8 = v := by
  unfold rbopWord
  apply BitVec.eq_of_getLsbD_eq
  intro i hi
  simp only [BitVec.getLsbD_extractLsb', BitVec.getLsbD_append]
  simp [hi]

/-! ### Control byte -/

theorem ctlByte_bsb (s : Bsb) (rwb : Bool) (om : OpMode) : ctlBsb (ctlByte s rwb om) = s := by
  unfold ctlBsb ctlByte
  apply BitVec.eq_of_getLsbD_eq
  intro i hi
  simp only [BitVec.getLsbD_extractLsb', BitVec.getLsbD_append]
  have h1 : ¬ (3 + i ≤ 1) := by omega
  have h2 : ¬ (3 + i - 2 = 0) := by omega
  have h3 : 3 + i - 2 - 1 = i := by omega
  simp [hi, h1, h2, h3]

theorem ctlByte_write (s : Bsb) (rwb : Bool) (om : OpMode) : ctlWrite (ctlByte s rwb om) = rwb := by
  unfold ctlWrite ctlByte
  simp only [BitVec.getLsbD_append]
  simp

theorem ctlByte_om (s : Bsb) (rwb : Bool) (om : OpMode) : decodeOm (ctlByte s rwb om) = om := by
  have h : (ctlByte s rwb om).extractLsb' 0 2 = encodeOm om := by
    unfold ctlByte
    apply BitVec.eq_of_getLsbD_eq
    intro i hi
    simp only [BitVec.getLsbD_extractLsb', BitVec.getLsbD_append]
    simp [hi]
  unfold decodeOm
  rw [h]
  cases om <;> rfl

/-- The control byte is its three fields (R63). -/
theorem ctlByte_fields (ctl : Byte) : ctlByte (ctlBsb ctl) (ctlWrite ctl) (decodeOm ctl) = ctl := by
  revert ctl
  decide

/-- A block select is its socket and its kind (R63). -/
theorem bsbKind_bsbOf (n : SockIx) (k : BitVec 2) : bsbKind (bsbOf n k) = k := by
  revert n k
  decide

theorem bsbSock_bsbOf (n : SockIx) (k : BitVec 2) : bsbSock (bsbOf n k) = n := by
  revert n k
  decide

theorem bsbOf_fields (s : Bsb) : bsbOf (bsbSock s) (bsbKind s) = s := by
  revert s
  decide

/-- A block select of kind 1, 2 or 3 is never reserved (R134). -/
theorem reservedBsb_bsbOf (n : SockIx) (k : BitVec 2) (h : k ≠ 0) : reservedBsb (bsbOf n k) = false := by
  unfold reservedBsb
  rw [bsbKind_bsbOf, decide_eq_false h]
  rfl

/-- The common block is not reserved (R134). -/
theorem reservedBsb_zero : reservedBsb 0 = false := by decide

/-! ### Frames -/

/-- The two address bytes of a frame are its address (R62). -/
theorem address_bytes (a : Word16) : (a.extractLsb' 8 8 ++ a.extractLsb' 0 8 : Word16) = a := by
  apply BitVec.eq_of_getLsbD_eq
  intro i hi
  simp only [BitVec.getLsbD_append, BitVec.getLsbD_extractLsb']
  by_cases h : i < 8
  · simp [h]
  · have : 8 + (i - 8) = i := by omega
    simp [h, this, show i - 8 < 8 by omega]

/-- A frame decodes by its block select, address, direction, mode and data (R62, R63). -/
theorem decodeFrame_frameBytes (b : Bsb) (rwb : Bool) (off : Word16) (om : OpMode) (data : List Byte) :
    decodeFrame (frameBytes b rwb off om data) =
      (if reservedBsb b then .ok (decodeReserved (bsbSock b) off rwb om data)
       else if om.admits data.length then .ok (decodeBlock b off rwb om data)
       else .error .chainedFrames) := by
  show decodeFields (_ ++ _) _ _ = _
  unfold decodeFields
  rw [address_bytes, ctlByte_bsb, ctlByte_write, ctlByte_om]

end Sys2Proof.Laws
end

