-- ==== Sys2Proof/Laws/Parser.lean ====
section
/-!
SUPPORT. What the parser's operations leave alone (R135 to R138), and what one byte slot does in each phase (R133).
-/

namespace Sys2Proof.Machine.Laws

/-! ### `check_total()` -/

@[simp] theorem checkTotal_sfp (s : State) : (checkTotal s).sfp = s.sfp := by rw [checkTotal_eq]
@[simp] theorem checkTotal_refusals (s : State) : (checkTotal s).refusals = s.refusals := by rw [checkTotal_eq]
@[simp] theorem checkTotal_draws (s : State) : (checkTotal s).draws = s.draws := by rw [checkTotal_eq]
@[simp] theorem checkTotal_sock (s : State) (n : SockIx) : (checkTotal s).sock n = s.sock n := by
  rw [checkTotal_eq]; rfl

/-- `check_total()` where both totals are at most 16 (R151). -/
theorem checkTotal_ok {s : State} (h : TotalsOk s) : checkTotal s = s := by
  rcases checkTotal_cases s with ⟨_, _, e⟩ | ⟨k, _⟩
  · exact e
  · have := h.rx; have := h.tx; omega

/-! ### The address space -/

/-- A buffer read changes nothing the SFP holds (R152). -/
@[simp] theorem bufRead_sfp (sz : Byte) (m : Memory) (off : Word16) (s : State) :
    (bufRead sz m off s).2.sfp = s.sfp := by
  unfold bufRead
  split
  · simp
  · split <;> simp

/-- A read changes nothing the SFP holds (R138). -/
@[simp] theorem memRead_sfp (b : Bsb) (off : Word16) (s : State) : (memRead b off s).2.sfp = s.sfp := by
  unfold memRead
  split
  · split
    · split <;> simp [unmodelledRead]
    · simp
  · split <;> simp [unmodelledRead]
  · simp
  · simp

/-- What the parser holds of the frame in progress: phase, address, control byte, count and CSPREV. -/
def latches (x : Sfp) : Phase × Word16 × Byte × Nat × Bool := (x.phase, x.addr, x.ctl, x.n, x.csPrev)

/-- A write leaves the parser's latches (R138, R166). -/
theorem memWrite_latches (b : Bsb) (off : Word16) (v : Byte) (s : State) :
    latches (memWrite b off v s).sfp = latches s.sfp := by
  unfold memWrite
  split
  · split
    · split
      · rename_i r _
        cases r
        case mr => simp only [commonWrite, writeMr]; split <;> rfl
        all_goals rfl
      · simp [unmodelledWrite]
    · simp
  · split
    · rename_i r _
      cases r
      case cr =>
        simp only [sockWrite, writeCr]
        split
        · rfl
        · split
          · simp
          · split
            · simp [sfp_onSock, latches]
            · simp [refuseCommand]
      case rxsz => simp only [sockWrite, writeRxsz]; split; simp; split <;> rfl
      case txsz => simp only [sockWrite, writeTxsz]; split; simp; split <;> rfl
      all_goals rfl
    · simp [unmodelledWrite]
  · unfold txBufWrite
    split
    · simp
    · simp [sfp_onSock, latches]
  · simp

/-! ### The counters (R135 to R137) -/

@[simp] theorem advance_csPrev (x : Sfp) : x.advance.csPrev = x.csPrev := by unfold Sfp.advance; split <;> rfl
@[simp] theorem advance_regs (x : Sfp) : x.advance.regs = x.regs := by unfold Sfp.advance; split <;> rfl
@[simp] theorem advance_resetting (x : Sfp) : x.advance.resetting = x.resetting := by
  unfold Sfp.advance; split <;> rfl
@[simp] theorem advance_addr (x : Sfp) : x.advance.addr = x.addr + 1 := by unfold Sfp.advance; split <;> rfl
@[simp] theorem advance_ctl (x : Sfp) : x.advance.ctl = x.ctl := by unfold Sfp.advance; split <;> rfl

/-- A data phase with more bytes to come goes on (R137). -/
theorem advance_more {x : Sfp} (h : (decodeOm x.ctl).len ≠ some (x.n + 1)) :
    x.advance.phase = x.phase ∧ x.advance.n = x.n + 1 := by
  simp [Sfp.advance, h]

/-! ### Edges (R131) -/

/-- The end of a step leaves CSPREV at the level of the line (R131). -/
@[simp] theorem edge_csPrev (x : Sfp) (c : Bool) : (x.edge c).csPrev = c := by
  unfold Sfp.edge
  split
  · rfl
  · split <;> rfl

/-- An edge leaves the registers and the settling (R131). -/
@[simp] theorem edge_regs (x : Sfp) (c : Bool) : (x.edge c).regs = x.regs := by
  unfold Sfp.edge
  split
  · rfl
  · split <;> rfl

@[simp] theorem edge_resetting (x : Sfp) (c : Bool) : (x.edge c).resetting = x.resetting := by
  unfold Sfp.edge
  split
  · rfl
  · split <;> rfl

/-! ### A byte slot by phase (R133) -/

theorem sfpSlot_idle {s : State} (b : Byte) (r : s.sfp.resetting = false) (l : linkOk s = true)
    (h : s.sfp.phase = .idle) : sfpSlot b s = draw s := by simp [sfpSlot, r, l, h]

theorem sfpSlot_addrHi {s : State} (b : Byte) (r : s.sfp.resetting = false) (l : linkOk s = true)
    (h : s.sfp.phase = .addrHi) : sfpSlot b s =
      draw (s.onSfp fun x => { x with addr := b ++ x.addr.extractLsb' 0 8, phase := .addrLo }) := by
  simp [sfpSlot, r, l, h]

theorem sfpSlot_addrLo {s : State} (b : Byte) (r : s.sfp.resetting = false) (l : linkOk s = true)
    (h : s.sfp.phase = .addrLo) : sfpSlot b s =
      draw (s.onSfp fun x => { x with addr := x.addr.extractLsb' 8 8 ++ b, phase := .ctrl }) := by
  simp [sfpSlot, r, l, h]

theorem sfpSlot_ctrl {s : State} (b : Byte) (r : s.sfp.resetting = false) (l : linkOk s = true)
    (h : s.sfp.phase = .ctrl) : sfpSlot b s = draw (ctrlSlot b s) := by simp [sfpSlot, r, l, h]

theorem sfpSlot_data {s : State} (b : Byte) (r : s.sfp.resetting = false) (l : linkOk s = true)
    (h : s.sfp.phase = .data) : sfpSlot b s = dataSlot b s := by simp [sfpSlot, r, l, h]

/-- A read slot returns what the address space reads and moves the counters on (R135). -/
theorem dataSlot_read {s : State} (b : Byte) (h : ctlWrite s.sfp.ctl = false) :
    dataSlot b s = ((memRead (ctlBsb s.sfp.ctl) s.sfp.addr s).1,
      (memRead (ctlBsb s.sfp.ctl) s.sfp.addr s).2.onSfp Sfp.advance) := by simp [dataSlot, h]

/-- A write slot writes the address space and moves the counters on (R135). -/
theorem dataSlot_write {s : State} (b : Byte) (h : ctlWrite s.sfp.ctl = true) :
    (dataSlot b s).2 = (draw (memWrite (ctlBsb s.sfp.ctl) s.sfp.addr b s)).2.onSfp Sfp.advance := by
  simp [dataSlot, h]

/-- The first three slots of an assertion: they latch the address and hand the third byte to the control slot, with three
draws taken (R133). -/
theorem slots_header {s : State} (hi lo ctl : Byte) (r : s.sfp.resetting = false) (l : linkOk s = true)
    (h : s.sfp.phase = .addrHi) : (slots [hi, lo, ctl] s).2 =
      (draw (ctrlSlot ctl { s with
        sfp := { s.sfp with addr := hi ++ lo, phase := .ctrl }, draws := s.draws + 2 })).2 := by
  have e : ((hi ++ s.sfp.addr.extractLsb' 0 8 : Word16).extractLsb' 8 8 ++ lo : Word16) = hi ++ lo := by
    congr 1
    apply BitVec.eq_of_getLsbD_eq
    intro i hi'
    simp only [BitVec.getLsbD_extractLsb', BitVec.getLsbD_append]
    simp [hi']
  have l1 : linkOk { s with sfp := { s.sfp with addr := hi ++ lo, phase := .ctrl }, draws := s.draws + 2 } = true := l
  have l2 : linkOk (draw (s.onSfp fun x =>
      { x with addr := hi ++ x.addr.extractLsb' 0 8, phase := .addrLo })).2 = true := l
  simp only [slots]
  rw [sfpSlot_addrHi hi r l h, sfpSlot_addrLo lo (by exact r) l2 (by rfl)]
  rw [← sfpSlot_ctrl ctl (by exact r) l1 (by rfl), ← e]
  rfl

/-- The address and the control byte of a frame, block select not reserved, latched (R133). -/
def opened (s : State) (b : Bsb) (rwb : Bool) (off : Word16) (om : OpMode) : State :=
  { s with
    sfp := { s.sfp with phase := .data, addr := off, ctl := ctlByte b rwb om, n := 0, csPrev := true },
    draws := s.draws + 3 }

/-- An assertion with the bytes of a frame whose block select is not reserved: three header slots, then its data
slots from the opened state (R131, R133). -/
theorem slots_frameBytes {s : State} (b : Bsb) (rwb : Bool) (off : Word16) (om : OpMode) (data : List Byte)
    (h : FrameReady s) (hb : reservedBsb b = false) :
    ∃ header, header.length = 3 ∧ slots (frameBytes b rwb off om data) (assertLine s) =
      (header ++ (slots data (opened s b rwb off om)).1, (slots data (opened s b rwb off om)).2) := by
  have e : frameBytes b rwb off om data =
      [off.extractLsb' 8 8, off.extractLsb' 0 8, ctlByte b rwb om] ++ data := rfl
  have k : (slots [off.extractLsb' 8 8, off.extractLsb' 0 8, ctlByte b rwb om] (assertLine s)).2 =
      opened s b rwb off om := by
    have r : (assertLine s).sfp.resetting = false := by simp [assertLine, h.settled]
    have l : linkOk (assertLine s) = true := h.link
    rw [slots_header _ _ _ r l (by simp [assertLine, Sfp.edge, h.seen_released]), Laws.address_bytes]
    unfold ctrlSlot
    rw [Laws.ctlByte_bsb, hb]
    simp [draw, State.onSfp, assertLine, Sfp.edge, h.seen_released, opened]
  refine ⟨(slots [off.extractLsb' 8 8, off.extractLsb' 0 8, ctlByte b rwb om] (assertLine s)).1, by simp, ?_⟩
  rw [e, slots_append, k]

/-- A slot leaves CSPREV (R131 alone moves it). -/
theorem sfpSlot_csPrev (b : Byte) (s : State) : (sfpSlot b s).2.sfp.csPrev = s.sfp.csPrev := by
  unfold sfpSlot
  split
  · simp
  · split
    · split
      · rfl
      · rfl
      · rfl
      · unfold ctrlSlot; split <;> simp
      · unfold dataSlot
        split
        · have h := memWrite_latches (ctlBsb s.sfp.ctl) s.sfp.addr b s
          simp only [latches, Prod.mk.injEq] at h
          simp only [onSfp_sfp, draw_sfp, advance_csPrev]
          exact h.2.2.2.2
        · simp
    · simp

/-- So do the slots of a whole assertion. -/
theorem slots_csPrev (bytes : List Byte) (s : State) : (slots bytes s).2.sfp.csPrev = s.sfp.csPrev := by
  induction bytes generalizing s with
  | nil => rfl
  | cons b rest ih => exact (ih _).trans (sfpSlot_csPrev b s)

end Sys2Proof.Machine.Laws
end

