-- ==== Sys2Proof/Laws/Meanings.lean ====
section
/-!
SUPPORT. What the shared operations of the meanings can do, once each: a socket command taken (R155), a load of the SPI
shifter (R113), an operation at a ring's port (R71), a frame (R131, R133), a step (R52); and the canonical form of the reset
buffers (R36).
-/

namespace Sys2Proof.Machine.Laws

/-- A command taken: the status its rule says, or the refusal with the status left; CRPEND is cleared either way
(R155). -/
theorem takeCommand_cases (n : SockIx) (f : SockStatus → Option SockStatus) (s : State) :
    (∃ sr, f (s.sock n).sr = some sr ∧ takeCommand n f s = s.onSock n fun k => { k with sr := sr, crpend := 0 }) ∨
    (f (s.sock n).sr = none ∧
      takeCommand n f s = (refuse .netCmdState s).onSock n fun k => { k with crpend := 0 }) := by
  unfold takeCommand
  split
  · next sr h => exact Or.inl ⟨sr, h, rfl⟩
  · next h => exact Or.inr ⟨h, rfl⟩

/-- A command reaches the SFP, the records and the draws alone. -/
theorem sfpOnly_takeCommand (n : SockIx) (f : SockStatus → Option SockStatus) (s : State) :
    SfpOnly s (takeCommand n f s) := by
  rcases takeCommand_cases n f s with ⟨_, _, h⟩ | ⟨_, h⟩ <;> rw [h]
  · exact .onSock s n _
  · exact (SfpOnly.refuse _ s).trans (.onSock _ n _)

/-- A load: into an idle shifter, or a write collision (R113). -/
theorem spiLoad_cases (v : Byte) (s : State) :
    (s.spi.sh = .idle ∧ spiLoad v s = s.onSpi fun p => { p with sh := .busy v, auto := true }) ∨
    (s.spi.sh ≠ .idle ∧ spiLoad v s = setSpiWcol s) := by
  by_cases h : s.spi.sh = .idle
  · exact Or.inl ⟨h, by simp [spiLoad, h]⟩
  · exact Or.inr ⟨h, by simp [spiLoad, h]⟩

/-- A frame: the slots after the assertion, the response, and the end of the frame (R131, R133). -/
theorem runFrame_eq (bytes : List Byte) (s : State) :
    runFrame bytes s = endStep (respond (.miso (slots bytes (assertLine s)).1) (slots bytes (assertLine s)).2) := rfl

/-- A frame from a ready SFP leaves the line released and the parser idle, and reaches nothing outside the SFP, the
response, the records and the draws (R131). -/
theorem runFrame_leaves (bytes : List Byte) {s : State} (h : FrameReady s) : FrameLeaves s (runFrame bytes s) := by
  have k := (SfpOnly.onSfp s fun x => x.edge true).trans (sfpOnly_slots bytes (assertLine s))
  have c : cs (respond (.miso (slots bytes (assertLine s)).1) (slots bytes (assertLine s)).2)
      (respond (.miso (slots bytes (assertLine s)).1) (slots bytes (assertLine s)).2).cfg.sfpSs = false := by
    have e1 : (slots bytes (assertLine s)).2.cfg = s.cfg := k.cfg_eq
    have e2 : (slots bytes (assertLine s)).2.spi = s.spi := k.spi_eq
    have e3 : (respond (.miso (slots bytes (assertLine s)).1) (slots bytes (assertLine s)).2).cfg.sfpSs = s.cfg.sfpSs :=
      congrArg Config.sfpSs e1
    rw [e3]
    exact (cs_congr (s := s) e2 _).trans h.released
  have p : (slots bytes (assertLine s)).2.sfp.csPrev = true := by
    rw [slots_csPrev]; simp [assertLine]
  have r := k.1
  refine ⟨?_, ?_, ?_, (slots bytes (assertLine s)).1, ?_⟩
  · rw [runFrame_eq]
    simp only [endStep, respond, State.onSfp]
    rw [r]
  · rw [runFrame_eq]
    simp only [endStep, onSfp_sfp]
    rw [c]
    simp [Sfp.edge, respond, p]
  · rw [runFrame_eq]
    simp only [endStep, onSfp_sfp, edge_csPrev]
    exact c
  · rw [runFrame_eq]
    simp only [endStep, respond, State.onSfp]
    rw [r]

/-- An RBOP at a port: it runs where the port is the agent's and issues it, and else is no step (R71). -/
theorem runPort_cases (a : Agent) (p : Port) (q : RingId) (op : BitVec 10) (s : State) :
    (portAgent q p = a ∧ portIssues p op = true ∧ runPort a p q op s = exec (decodeRbop q op) s) ∨
    (¬(portAgent q p = a ∧ portIssues p op = true) ∧ runPort a p q op s = .next s) := by
  by_cases h : portAgent q p = a ∧ portIssues p op = true
  · exact Or.inl ⟨h.1, h.2, by simp [runPort, portAllows, h]⟩
  · refine Or.inr ⟨h, ?_⟩
    simp only [runPort, portAllows, Bool.and_eq_true, decide_eq_true_eq]
    exact if_neg h

/-- One agent drives each port: a port that takes an operation of two agents is driven by one (R71). -/
theorem port_one_agent {a b : Agent} {p : Port} {q : RingId} {op op' : BitVec 10} (h : portAllows a p q op = true)
    (k : portAllows b p q op' = true) : a = b := by
  simp only [portAllows, Bool.and_eq_true, decide_eq_true_eq] at h k
  exact h.1.symm.trans k.1

/-- The port that issues an operation issues it. -/
theorem portIssues_portOf (op : BitVec 10) : portIssues (portOf op) op = true := by
  unfold portIssues portOf
  split <;> simp_all

/-- A step with nothing scheduled changes nothing (R52, log 2). -/
theorem step_idle {s : State} (h : s.sched = []) : step s = .next s := by simp [step, stepMove, h]

/-- A step makes the first move, and ends with the SFP's look at its line (R131). -/
theorem step_move {s : State} {m : Move} {rest : List Move} (h : s.sched = m :: rest) :
    step s = finish (runMove m { s with sched := rest }) := by simp [step, stepMove, h]

/-- Every buffer of the launch is empty, so canonical and within any size (R36, R38). -/
theorem launch_buffers_within (c : Config) (n : SockIx) :
    ((State.launch c).sock n).txbuf.Within ((State.launch c).sock n).txsz ∧
    ((State.launch c).sock n).rxbuf.Within ((State.launch c).sock n).rxsz := by
  have h : (State.launch c).sock n = socketReset := by
    simp [State.sock, State.launch, sfpLaunch, sfpRegsReset, Vector.get]
  rw [h]
  exact ⟨memory_within_nil _, memory_within_nil _⟩

end Sys2Proof.Machine.Laws
end

