-- ==== Sys2Proof/Laws/Rings.lean ====
section
/-!
SUPPORT. What the ring operations can do (R74 to R77), once each.
-/

namespace Sys2Proof.Machine.Laws

/-- PUSH into a full ring (R74). -/
theorem push_full (r : Ring) (v : Byte) (h : r.count = r.cap) : r.push v = (false, r) := by
  simp [Ring.push, h]

/-- PUSH into a ring with room (R74). -/
theorem push_room (r : Ring) (v : Byte) (h : r.count ≠ r.cap) : r.push v = (true, r.store v) := by
  simp [Ring.push, h]

/-- POP of an empty ring (R75). -/
theorem pop_empty (r : Ring) (h : r.count = 0) : r.pop = (none, r) := by simp [Ring.pop, h]

/-- POP of a ring that holds something (R75). -/
theorem pop_some (r : Ring) (h : r.count ≠ 0) :
    r.pop = (some (r.buf.getD r.tail 0),
      { r with tail := (r.tail + 1) % r.cap, count := r.count - 1 }) := by simp [Ring.pop, h]

/-- PUSH keeps R17 and R18. -/
theorem ok_push {r : Ring} {cap : Nat} (h : r.Ok cap) (v : Byte) : (r.push v).2.Ok cap := by
  by_cases hc : r.count = r.cap
  · rw [push_full r v hc]; exact h
  · rw [push_room r v hc]
    have h1 := h.cap_eq
    have h2 := h.count_le
    refine ⟨h1, h.cap_pos, by simp [Ring.store, h.buf_len], h.tail_lt, ?_, ?_⟩
    · simp only [Ring.store]; omega
    · simp only [Ring.store, h.head_eq, h1, Nat.mod_add_mod]; rw [Nat.add_assoc]

/-- POP keeps R17 and R18. -/
theorem ok_pop {r : Ring} {cap : Nat} (h : r.Ok cap) : r.pop.2.Ok cap := by
  by_cases hc : r.count = 0
  · rw [pop_empty r hc]; exact h
  · rw [pop_some r hc]
    refine ⟨h.cap_eq, h.cap_pos, h.buf_len, ?_, ?_, ?_⟩
    · rw [h.cap_eq]; exact Nat.mod_lt _ h.cap_pos
    · have := h.count_le; simp only; omega
    · simp only [h.cap_eq, h.head_eq, Nat.mod_add_mod]
      congr 1
      omega

/-- CLEAR keeps R17 and R18. -/
theorem ok_clear {r : Ring} {cap : Nat} (h : r.Ok cap) : r.clear.Ok cap :=
  ⟨h.cap_eq, h.cap_pos, h.buf_len, h.cap_pos, Nat.zero_le _, by simp [Ring.clear]⟩

/-- A fresh ring is as R17 says. -/
theorem ok_fresh {cap : Nat} (h : 0 < cap) : (ringFresh cap).Ok cap :=
  ⟨rfl, h, by simp [ringFresh], h, Nat.zero_le _, by simp [ringFresh]⟩

/-- CAP never changes. -/
@[simp] theorem push_cap (r : Ring) (v : Byte) : (r.push v).2.cap = r.cap := by
  unfold Ring.push; split <;> rfl

/-- CAP never changes. -/
@[simp] theorem pop_cap (r : Ring) : r.pop.2.cap = r.cap := by unfold Ring.pop; split <;> rfl

/-- CAP never changes. -/
@[simp] theorem clear_cap (r : Ring) : r.clear.cap = r.cap := rfl

/-- A ring holds COUNT bytes. -/
@[simp] theorem contents_length (r : Ring) : r.contents.length = r.count := by simp [Ring.contents]

/-- What a read of a receive DATA register does (R85, R114). -/
theorem readData_cases (q : RingId) (uf : State → State) (s : State) :
    ((s.ring q).count = 0 ∧ readData q uf s = hostRead 0 (uf s)) ∨
    ((s.ring q).count ≠ 0 ∧
      readData q uf s = hostRead ((s.ring q).buf.getD (s.ring q).tail 0) (popRing q s)) := by
  by_cases h : (s.ring q).count = 0
  · exact Or.inl ⟨h, by simp [readData, pop_empty _ h]⟩
  · exact Or.inr ⟨h, by simp [readData, pop_some _ h]⟩

/-- What a write of a transmit DATA register does (R84, R112). -/
theorem writeData_cases (q : RingId) (ovf : State → State) (v : Byte) (s : State) :
    ((s.ring q).count = (s.ring q).cap ∧ writeData q ovf v s = ovf s) ∨
    ((s.ring q).count ≠ (s.ring q).cap ∧ writeData q ovf v s = s.setRing q ((s.ring q).store v)) := by
  by_cases h : (s.ring q).count = (s.ring q).cap
  · exact Or.inl ⟨h, by simp [writeData, push_full _ _ h]⟩
  · exact Or.inr ⟨h, by simp [writeData, pushRing, push_room _ _ h]⟩

end Sys2Proof.Machine.Laws
end

