-- ==== Sys2Proof/Laws/Fairness.lean ====
section
/-!
SUPPORT. The consequences R193 draws for an admissible run: PIN DELAY_SETTLE completes, a poll of Sn_CR ends, a poll of
SPI BUSY ends, a poll of UART TXBUSY ends where TXEN is set.
-/

namespace Sys2Proof.Machine.Laws

/-- Step `k` of a run makes its move. -/
theorem run_step {r : Run} (h : r.Admissible) (k : Nat) :
    finish (runMove (r.move k) { r.before k with sched := [] }) = .next (r.state (k + 1)) :=
  (step_move (s := r.before k) rfl).symm.trans (h.steps k)

/-- The state after a step is the move's, seen by the SFP. -/
theorem run_next {r : Run} (h : r.Admissible) (k : Nat) {t : State}
    (e : runMove (r.move k) { r.before k with sched := [] } = .next t) : r.state (k + 1) = endStep t := by
  have h1 := run_step h k
  rw [e] at h1
  exact (Host.Outcome.next.inj h1).symm

/-- After a settle step nothing settles (R168). -/
theorem sfpSettle_settled (s : State) : (sfpSettle s).sfp.resetting = false := by
  unfold sfpSettle
  split
  · rfl
  · simp_all

/-- `PIN DELAY_SETTLE` always completes: the settling ends (R193, R168). -/
theorem settling_ends {r : Run} (h : r.Admissible) (k : Nat) : ∃ j, k ≤ j ∧ (r.state j).sfp.resetting = false := by
  by_contra hn
  have hr : ∀ j, k ≤ j → (r.state j).sfp.resetting = true := fun j hj => by
    by_contra hc
    exact hn ⟨j, hj, by simpa using hc⟩
  obtain ⟨j, hj, e⟩ := h.fair .sfpSettle rfl k hr
  have h1 := run_next h j (by rw [e]; rfl)
  have h2 := hr (j + 1) (Nat.le_succ_of_le hj)
  rw [h1, endStep_sfp, edge_resetting, sfpSettle_settled] at h2
  cases h2

/-- NET's step takes a pending command, whichever of the nine it is, and clears CRPEND (R155). -/
theorem take_clears (n : SockIx) {s : State} (hs : s.sfp.resetting = false)
    (hc : (s.sock n).crpend ∈ commandCodes) :
    ∃ t, runMove (.netTake n) s = .next t ∧ (t.sock n).crpend = 0 := by
  have key : ∀ f u, ((takeCommand n f u).sock n).crpend = 0 := by
    intro f u
    rcases takeCommand_cases n f u with ⟨_, _, e⟩ | ⟨_, e⟩ <;> rw [e] <;> simp
  simp only [runMove, runTake, hs, Bool.false_eq_true, if_false]
  simp only [commandCodes, List.mem_cons, List.not_mem_nil, or_false] at hc
  rcases hc with e | e | e | e | e | e | e | e | e <;> rw [e] <;> exact ⟨_, rfl, key _ _⟩

/-- A poll of Sn_CR always ends: while the SFP is settled a pending command is taken (R193, R155). That only the nine
commands are ever pending is the invariant `SfpOk`. -/
theorem command_poll_ends {r : Run} (h : r.Admissible) (n : SockIx) (k : Nat)
    (settled : ∀ j, k ≤ j → (r.state j).sfp.resetting = false) (inv : ∀ j, k ≤ j → SfpOk (r.state j)) :
    ∃ j, k ≤ j ∧ ((r.state j).sock n).crpend = 0 := by
  by_contra hn
  have hp : ∀ j, k ≤ j → ((r.state j).sock n).crpend ≠ 0 := fun j hj e => hn ⟨j, hj, e⟩
  obtain ⟨j, hj, e⟩ := h.fair (.netTake n) rfl k fun j hj => by
    simp only [enabled, settled j hj, Bool.not_false, Bool.true_and, decide_eq_true_eq]
    exact hp j hj
  obtain ⟨t, h1, h2⟩ := take_clears n (s := { r.before j with sched := [] }) (settled j hj)
    ((((inv j hj).socks n).crpend_known).resolve_left (hp j hj))
  apply hp (j + 1) (Nat.le_succ_of_le hj)
  rw [run_next h j (by rw [e]; exact h1)]
  rw [State.sock, endStep_sfp, edge_regs]
  exact h2

/-! ### Polls of BUSY and TXBUSY -/

/-- A quantity that each step keeps or lowers, and that does not stay where it is before the end, reaches the end. -/
theorem ends_of_measure {α : Type} (v : Nat → α) (μ : α → Nat) (done : Nat → Prop) (k : Nat)
    (step : ∀ j, k ≤ j → ¬done j → v (j + 1) = v j ∨ μ (v (j + 1)) < μ (v j))
    (stuck : ∀ j, k ≤ j → (∀ i, j ≤ i → ¬done i) → ¬∀ i, j ≤ i → v i = v j) : ∃ j, k ≤ j ∧ done j := by
  by_contra hn
  have hd : ∀ j, k ≤ j → ¬done j := fun j hj e => hn ⟨j, hj, e⟩
  have go : ∀ m j, k ≤ j → μ (v j) = m → False := by
    intro m
    induction m using Nat.strong_induction_on with
    | _ m ih =>
      intro j hj hm
      apply stuck j hj fun i hi => hd i (Nat.le_trans hj hi)
      intro i hi
      induction i, hi using Nat.le_induction with
      | base => rfl
      | succ i hi e =>
        rcases step i (Nat.le_trans hj hi) (hd i (Nat.le_trans hj hi)) with s | s
        · exact s.trans e
        · rw [e, hm] at s
          exact (ih _ s (i + 1) (Nat.le_succ_of_le (Nat.le_trans hj hi)) rfl).elim
  exact go _ k (Nat.le_refl k) rfl

/-- What the transmit side shows of a state: the transmit rings, the shifters, the drain and TXEN. -/
def sending (s : State) : Nat × TxShifter × Bool × Nat × SpiShifter × Drain :=
  (s.utx.count, s.uart.txsh, s.uart.ctrl.txen, s.stx.count, s.spi.sh, s.spi.drain)

@[simp] theorem sending_endStep (s : State) : sending (endStep s) = sending s := rfl

/-- A register read leaves the transmit side (R85 to R99, R114 to R126). -/
theorem sending_read (off : Byte) (s : State) :
    ∃ t, exec (decodeRead off) s = .next t ∧ sending t = sending s := by
  unfold decodeRead
  split
  case h_1 =>
    refine ⟨_, rfl, ?_⟩
    rcases readData_cases .urx setUartRxuf s with ⟨_, e⟩ | ⟨_, e⟩ <;> rw [e] <;> rfl
  case h_12 =>
    refine ⟨_, rfl, ?_⟩
    rcases readData_cases .srx setSpiRxuf s with ⟨_, e⟩ | ⟨_, e⟩ <;> rw [e] <;> rfl
  all_goals exact ⟨_, rfl, rfl⟩

/-- HOST's step, where its request is a read or the settle wait, leaves the transmit side. -/
theorem sending_host (s : State)
    (h : ∀ a ∈ s.hostq, (a.req.getLsbD 17 = false ∧ a.req.getLsbD 16 = false) ∨ a.req = pinWord 1) :
    ∃ t, runMove .host s = .next t ∧ sending t = sending s := by
  simp only [runMove, runHost]
  split
  · exact ⟨s, rfl, rfl⟩
  · next a rest e =>
    have ha := h a (by rw [e]; exact List.mem_cons_self ..)
    unfold runAccess
    split
    · refine ⟨_, rfl, ?_⟩
      simp only [hostWidth]
      rw [refuse_eq]
      rfl
    · rcases ha with ⟨h17, h16⟩ | ha
      · simp only [decodeHreq, h17, h16, Bool.false_eq_true, if_false]
        exact sending_read _ _
      · rw [ha]
        refine ⟨_, rfl, ?_⟩
        split <;> rfl

/-- What leaves all but the SFP, the records and the draws leaves the transmit side. -/
theorem SfpOnly.sending_eq {s t : State} (h : SfpOnly s t) : sending t = sending s := by rw [h.1]; rfl

/-- A socket command reaches the SFP, the records and the draws alone (R155). -/
theorem sfpOnly_command (n : SockIx) (c : Byte) (s : State) :
    ∃ t, exec (decodeSncmd n c) s = .next t ∧ SfpOnly s t := by
  unfold decodeSncmd
  split
  case h_1 => exact ⟨_, rfl, .refl s⟩
  case h_5 => exact ⟨_, rfl, (SfpOnly.drawChoice s).trans (sfpOnly_takeCommand n _ _)⟩
  case h_11 => exact ⟨_, rfl, .refuse _ s⟩
  all_goals exact ⟨_, rfl, sfpOnly_takeCommand n _ s⟩

/-- A received frame leaves the transmit side (R106). -/
theorem sending_receive (f : RxFrame) (s : State) : sending (receive f s) = sending s := by
  unfold receive
  split <;> rfl

/-- The moves but the load, drain and completion steps and the block reset leave the transmit side, where HOST only
reads or waits. -/
theorem sending_other (m : Move) (s : State) (hm : blockMove m = true)
    (h : ∀ a ∈ s.hostq, (a.req.getLsbD 17 = false ∧ a.req.getLsbD 16 = false) ∨ a.req = pinWord 1)
    (h1 : m ≠ .utxStart) (h2 : m ≠ .utxFinish) (h3 : m ≠ .spiDrain) (h4 : m ≠ .spiComplete) (h5 : m ≠ .blockReset) :
    ∃ t, runMove m s = .next t ∧ sending t = sending s := by
  cases m
  case host => exact sending_host s h
  case ring => cases hm
  case frame => cases hm
  case line d p s1 s2 =>
    refine ⟨_, rfl, ?_⟩
    unfold lineFrame
    split
    · rfl
    · exact sending_receive _ s
  case sfpSettle =>
    refine ⟨_, rfl, ?_⟩
    unfold sfpSettle
    split <;> rfl
  case netTake n =>
    simp only [runMove, runTake]
    split
    · exact ⟨s, rfl, rfl⟩
    · obtain ⟨t, e, k⟩ := sfpOnly_command n (s.sock n).crpend s
      exact ⟨t, e, k.sending_eq⟩
  case netStatus n sr =>
    refine ⟨_, rfl, ?_⟩
    unfold netStatus
    split <;> rfl
  case netRx n i v =>
    refine ⟨_, rfl, ?_⟩
    unfold netRx
    split <;> rfl
  all_goals contradiction

/-- The UTX load step on the transmit side (R104). -/
theorem sending_utxStart (s : State) :
    sending (utxStart s) = if s.uart.ctrl.txen = true ∧ s.uart.txsh = .idle ∧ s.utx.count ≠ 0 then
      (s.utx.count - 1, .busy (s.utx.buf.getD s.utx.tail 0) s.uart.frame, true, s.stx.count, s.spi.sh, s.spi.drain)
      else sending s := by
  unfold utxStart
  by_cases hc : s.utx.count = 0
  · simp [pop_empty _ hc, hc]
  · by_cases he : s.uart.ctrl.txen = true <;> by_cases hi : s.uart.txsh = .idle <;>
      simp [pop_some _ hc, hc, he, hi, sending, popRing, State.setRing]

/-- The UTX completion step on the transmit side (R105). -/
theorem sending_utxFinish (s : State) :
    sending (utxFinish s) = (s.utx.count, .idle, s.uart.ctrl.txen, s.stx.count, s.spi.sh, s.spi.drain) := by
  unfold utxFinish
  split
  · next h => simp [sending, h]
  · next b fmt h =>
    simp only
    split
    · have k := sending_receive ⟨lowBits (dataBits fmt) b, parityBit fmt.par (lowBits (dataBits fmt) b), true, true⟩
        (emit (.uartTxFrame (lowBits (dataBits fmt) b) (dataBits fmt) (parityBit fmt.par (lowBits (dataBits fmt) b))
          (stopBits fmt)) s)
      simp only [sending, Prod.mk.injEq] at k ⊢
      exact ⟨k.1, rfl, k.2.2⟩
    · rfl

/-- The SPI drain step on the transmit side (R128). -/
theorem sending_spiDrain (s : State) :
    sending (spiDrain s) = if s.spi.drain = .active ∧ s.spi.sh = .idle then
      (if s.stx.count = 0 then (s.utx.count, s.uart.txsh, s.uart.ctrl.txen, 0, .idle, .idle)
       else (s.utx.count, s.uart.txsh, s.uart.ctrl.txen, s.stx.count - 1, .busy (s.stx.buf.getD s.stx.tail 0), .active))
      else sending s := by
  unfold spiDrain
  by_cases hc : s.stx.count = 0
  · by_cases he : s.spi.drain = .active <;> by_cases hi : s.spi.sh = .idle <;>
      simp [pop_empty _ hc, hc, he, hi, sending]
  · by_cases he : s.spi.drain = .active <;> by_cases hi : s.spi.sh = .idle <;>
      simp [pop_some _ hc, hc, he, hi, sending, popRing, State.setRing, spiLoad]

/-- The SPI completion step on the transmit side (R129). -/
theorem sending_spiComplete (s : State) :
    sending (spiComplete s) = (s.utx.count, s.uart.txsh, s.uart.ctrl.txen, s.stx.count, .idle, s.spi.drain) := by
  unfold spiComplete
  split
  · next h => simp [sending, h]
  · next b h =>
    have k : sending (spiExchange b s).2 = sending s := by
      unfold spiExchange
      split
      · exact (sfpOnly_sfpSlot b s).sending_eq
      · rfl
    simp only [sending, Prod.mk.injEq] at k ⊢
    exact ⟨k.1, k.2.1, k.2.2.1, k.2.2.2.1, rfl, k.2.2.2.2.2⟩

/-- A step of such a run on the transmit side: one of the five moves that reach it, or it stays. -/
theorem run_sending {r : Run} (h : r.Admissible) {k : Nat} (ro : r.ReadsOnlyFrom k) (j : Nat) (hj : k ≤ j) :
    ∃ s, sending s = sending (r.state j) ∧
      ((r.move j = .utxStart ∧ sending (r.state (j + 1)) = sending (utxStart s)) ∨
      (r.move j = .utxFinish ∧ sending (r.state (j + 1)) = sending (utxFinish s)) ∨
      (r.move j = .spiDrain ∧ sending (r.state (j + 1)) = sending (spiDrain s)) ∨
      (r.move j = .spiComplete ∧ sending (r.state (j + 1)) = sending (spiComplete s)) ∨
      (r.move j = .blockReset ∧ sending (r.state (j + 1)) = (0, .idle, false, 0, .idle, .idle)) ∨
      ((∀ m ∈ [Move.utxStart, .utxFinish, .spiDrain, .spiComplete, .blockReset], r.move j ≠ m) ∧
        sending (r.state (j + 1)) = sending (r.state j))) := by
  obtain ⟨hb, hq⟩ := ro j hj
  refine ⟨{ r.before j with sched := [] }, rfl, ?_⟩
  have next : ∀ {t}, runMove (r.move j) { r.before j with sched := [] } = .next t →
      sending (r.state (j + 1)) = sending t := fun e => by rw [run_next h j e, sending_endStep]
  by_cases h1 : r.move j = .utxStart
  · exact .inl ⟨h1, next (by rw [h1]; rfl)⟩
  by_cases h2 : r.move j = .utxFinish
  · exact .inr (.inl ⟨h2, next (by rw [h2]; rfl)⟩)
  by_cases h3 : r.move j = .spiDrain
  · exact .inr (.inr (.inl ⟨h3, next (by rw [h3]; rfl)⟩))
  by_cases h4 : r.move j = .spiComplete
  · exact .inr (.inr (.inr (.inl ⟨h4, next (by rw [h4]; rfl)⟩)))
  by_cases h5 : r.move j = .blockReset
  · exact .inr (.inr (.inr (.inr (.inl ⟨h5, next (t := blockReset { r.before j with sched := [] }) (by rw [h5]; rfl)⟩))))
  · obtain ⟨t, e, k⟩ := sending_other (r.move j) { r.before j with sched := [] } hb hq h1 h2 h3 h4 h5
    exact .inr (.inr (.inr (.inr (.inr ⟨by simp [h1, h2, h3, h4, h5], (next e).trans k⟩))))

/-- What is left to send over SPI: two steps for each queued byte, one for the byte in the shifter, one for the end of
the drain. -/
def spiLeft (v : Nat × SpiShifter × Drain) : Nat :=
  2 * v.1 + (if v.2.1 = .idle then 0 else 1) + (if v.2.2 = .idle then 0 else 1)

/-- What is left to send over the UART: two steps for each queued byte, one for the byte in the shifter. -/
def uartLeft (v : Nat × TxShifter) : Nat := 2 * v.1 + (if v.2 = .idle then 0 else 1)

/-- A poll of SPI BUSY always ends, where HOST sends nothing more (R193). -/
theorem spi_poll_ends {r : Run} (h : r.Admissible) (k : Nat) (ro : r.ReadsOnlyFrom k) :
    ∃ j, k ≤ j ∧ (r.state j).spi.busy = false := by
  refine ends_of_measure (fun j => (sending (r.state j)).2.2.2) spiLeft _ k ?_ ?_
  · intro j hj hd
    obtain ⟨s, hs, c⟩ := run_sending h ro j hj
    simp only [sending, Prod.mk.injEq] at hs
    obtain ⟨-, -, -, a1, a2, a3⟩ := hs
    rcases c with ⟨-, e⟩ | ⟨-, e⟩ | ⟨-, e⟩ | ⟨-, e⟩ | ⟨-, e⟩ | ⟨-, e⟩ <;> rw [e]
    · rw [sending_utxStart]; left; split <;> simp [sending, a1, a2, a3]
    · rw [sending_utxFinish]; left; simp [sending, a1, a2, a3]
    · rw [sending_spiDrain]
      split
      · next q =>
        right
        split
        · next z => simp [spiLeft, sending, ← a1, ← a2, ← a3, q, z]
        · next z => simp [spiLeft, sending, ← a1, ← a2, ← a3, q]; omega
      · left; simp [sending, a1, a2, a3]
    · rw [sending_spiComplete]
      by_cases q : s.spi.sh = .idle
      · left; simp [sending, ← a1, ← a2, ← a3, q]
      · right; simp [spiLeft, sending, ← a1, ← a2, ← a3, q]
    · right
      simp only [Spi.busy, Bool.or_eq_false_iff, decide_eq_false_iff_not, not_and, not_not] at hd
      simp only [spiLeft, sending]
      by_cases q : (r.state j).spi.sh = .idle
      · have := hd q
        simp [q, this]
      · simp [q]
    · exact .inl rfl
  · intro j hj hd st
    have v : ∀ i, j ≤ i → (r.state i).stx.count = (r.state j).stx.count ∧ (r.state i).spi.sh = (r.state j).spi.sh ∧
        (r.state i).spi.drain = (r.state j).spi.drain := fun i hi => by
      have := st i hi
      simpa [sending] using this
    by_cases q : (r.state j).spi.sh = .idle
    · have d : (r.state j).spi.drain = .active := by
        have := hd j (Nat.le_refl j)
        simpa [Spi.busy, q] using this
      obtain ⟨i, hi, e⟩ := h.fair .spiDrain rfl j fun i hi => by simp [enabled, (v i hi).2.1, (v i hi).2.2, q, d]
      obtain ⟨s, hs, c⟩ := run_sending h ro i (Nat.le_trans hj hi)
      simp only [sending, Prod.mk.injEq] at hs
      obtain ⟨-, -, -, a1, a2, a3⟩ := hs
      have n := v (i + 1) (Nat.le_succ_of_le hi)
      have n2 : sending (r.state (i + 1)) = sending (spiDrain s) := by simpa [e] using c
      rw [sending_spiDrain, a2, a3, (v i hi).2.1, (v i hi).2.2, q, d] at n2
      simp only [and_self, if_true] at n2
      split at n2
      · simp only [sending, Prod.mk.injEq] at n2
        rw [n.2.2, d] at n2
        simp at n2
      · simp only [sending, Prod.mk.injEq] at n2
        rw [n.2.1, q] at n2
        simp at n2
    · obtain ⟨i, hi, e⟩ := h.fair .spiComplete rfl j fun i hi => by simp [enabled, (v i hi).2.1, q]
      obtain ⟨s, hs, c⟩ := run_sending h ro i (Nat.le_trans hj hi)
      have n := v (i + 1) (Nat.le_succ_of_le hi)
      have n2 : sending (r.state (i + 1)) = sending (spiComplete s) := by simpa [e] using c
      rw [sending_spiComplete] at n2
      simp only [sending, Prod.mk.injEq] at n2
      exact q (n.2.1.symm.trans n2.2.2.2.2.1)

/-- A poll of UART TXBUSY ends where TXEN is set and HOST sends nothing more (R193). -/
theorem uart_poll_ends {r : Run} (h : r.Admissible) (k : Nat) (ro : r.ReadsOnlyFrom k)
    (en : (r.state k).uart.ctrl.txen = true) : ∃ j, k ≤ j ∧ uartTxbusy (r.state j) = false := by
  by_contra hn
  have busy : ∀ j, k ≤ j → uartTxbusy (r.state j) ≠ false := fun j hj e => hn ⟨j, hj, e⟩
  have on : ∀ j, k ≤ j → (r.state j).uart.ctrl.txen = true := by
    intro j hj
    induction j, hj using Nat.le_induction with
    | base => exact en
    | succ j hj ih =>
      obtain ⟨s, hs, c⟩ := run_sending h ro j hj
      have b := busy (j + 1) (Nat.le_succ_of_le hj)
      simp only [sending, Prod.mk.injEq] at hs
      obtain ⟨a1, a2, a4, -⟩ := hs
      rcases c with ⟨-, e⟩ | ⟨-, e⟩ | ⟨-, e⟩ | ⟨-, e⟩ | ⟨-, e⟩ | ⟨-, e⟩
      · rw [sending_utxStart] at e
        split at e <;> simp only [sending, Prod.mk.injEq] at e
        · exact e.2.2.1
        · rw [e.2.2.1, a4, ih]
      · rw [sending_utxFinish] at e; simp only [sending, Prod.mk.injEq] at e; rw [e.2.2.1, a4, ih]
      · rw [sending_spiDrain] at e
        split at e
        · split at e <;> simp only [sending, Prod.mk.injEq] at e <;> rw [e.2.2.1, a4, ih]
        · simp only [sending, Prod.mk.injEq] at e; rw [e.2.2.1, a4, ih]
      · rw [sending_spiComplete] at e; simp only [sending, Prod.mk.injEq] at e; rw [e.2.2.1, a4, ih]
      · simp only [sending, Prod.mk.injEq] at e
        exact absurd (by simp [uartTxbusy, e.1, e.2.1]) b
      · simp only [sending, Prod.mk.injEq] at e; rw [e.2.2.1, ih]
  apply hn
  refine ends_of_measure (fun j => ((sending (r.state j)).1, (sending (r.state j)).2.1)) uartLeft _ k ?_ ?_
  · intro j hj hd
    obtain ⟨s, hs, c⟩ := run_sending h ro j hj
    simp only [sending, Prod.mk.injEq] at hs
    obtain ⟨a1, a2, a4, -⟩ := hs
    rcases c with ⟨-, e⟩ | ⟨-, e⟩ | ⟨-, e⟩ | ⟨-, e⟩ | ⟨-, e⟩ | ⟨-, e⟩ <;> rw [e]
    · rw [sending_utxStart]
      split
      · next q => right; simp [uartLeft, sending, ← a1, ← a2, q]; omega
      · left; simp [sending, a1, a2]
    · rw [sending_utxFinish]
      by_cases q : s.uart.txsh = .idle
      · left; simp [sending, ← a1, ← a2, q]
      · right; simp [uartLeft, sending, ← a1, ← a2, q]
    · rw [sending_spiDrain]; left; split
      · split <;> simp [sending, a1, a2]
      · simp [sending, a1, a2]
    · rw [sending_spiComplete]; left; simp [sending, a1, a2]
    · right
      simp only [uartTxbusy, Bool.or_eq_false_iff, decide_eq_false_iff_not, not_and, not_not] at hd
      simp only [uartLeft, sending]
      by_cases q : (r.state j).utx.count = 0
      · have := hd q
        simp [q, this]
      · simp; omega
    · exact .inl rfl
  · intro j hj hd st
    have v : ∀ i, j ≤ i → (r.state i).utx.count = (r.state j).utx.count ∧
        (r.state i).uart.txsh = (r.state j).uart.txsh := fun i hi => by
      have := st i hi
      simpa [sending] using this
    by_cases q : (r.state j).uart.txsh = .idle
    · have d : (r.state j).utx.count ≠ 0 := by
        have := hd j (Nat.le_refl j)
        simpa [uartTxbusy, q] using this
      obtain ⟨i, hi, e⟩ := h.fair .utxStart rfl j fun i hi => by
        simp [enabled, (v i hi).1, (v i hi).2, q, on i (Nat.le_trans hj hi), Nat.pos_of_ne_zero d]
      obtain ⟨s, hs, c⟩ := run_sending h ro i (Nat.le_trans hj hi)
      simp only [sending, Prod.mk.injEq] at hs
      obtain ⟨a1, a2, a4, -⟩ := hs
      have n := v (i + 1) (Nat.le_succ_of_le hi)
      have n2 : sending (r.state (i + 1)) = sending (utxStart s) := by simpa [e] using c
      rw [sending_utxStart, if_pos ⟨a4.trans (on i (Nat.le_trans hj hi)), a2.trans ((v i hi).2.trans q),
        fun z => d ((v i hi).1.symm.trans (a1.symm.trans z))⟩] at n2
      simp only [sending, Prod.mk.injEq] at n2
      rw [n.2, q] at n2
      simp at n2
    · obtain ⟨i, hi, e⟩ := h.fair .utxFinish rfl j fun i hi => by simp [enabled, (v i hi).2, q]
      obtain ⟨s, hs, c⟩ := run_sending h ro i (Nat.le_trans hj hi)
      have n := v (i + 1) (Nat.le_succ_of_le hi)
      have n2 : sending (r.state (i + 1)) = sending (utxFinish s) := by simpa [e] using c
      rw [sending_utxFinish] at n2
      simp only [sending, Prod.mk.injEq] at n2
      exact q (n.2.symm.trans n2.2.1)

end Sys2Proof.Machine.Laws
end

