-- ==== Sys2Proof/Tests/Slice0.lean ====
section
/-!
SUPPORT. Tests: the well-formedness checks, words written out from the spec's encodings, one step per test on a small
state (the expected values are the examples of the rules named), and a witness for each statement's hypotheses.
-/

namespace Sys2Proof.Tests

open Sys2Proof Sys2Proof.Machine

/-! ### Helpers -/

/-- The state after an instruction. -/
def after (i : Instr) (s : State) : State :=
  match exec i s with
  | .next t => t
  | .fault _ => s
  | .refused _ => s

/-- The state after one step that makes move `m`. -/
def moved (m : Move) (s : State) : State :=
  match step { s with sched := [m] } with
  | .next t => t
  | .fault _ => s
  | .refused _ => s

/-- The value of the last host read. -/
def lastRead (s : State) : Option Byte :=
  match s.responses.getLast? with
  | some (.hostRead v) => some v
  | _ => none

/-- The k-th MISO byte of the last frame. -/
def lastMiso (s : State) (k : Nat) : Option Byte :=
  match s.responses.getLast? with
  | some (.miso bytes) => bytes[k]?
  | _ => none

/-- A ring of capacity `cap` that holds `bytes` from index 0. -/
def ringOf (cap : Nat) (bytes : List Byte) : Ring :=
  { cap := cap, buf := bytes ++ List.replicate (cap - bytes.length) 0, head := bytes.length % cap, tail := 0,
    count := bytes.length }

/-- The launch with a SPI master enabled in mode 0, buffered or not. -/
def spiOn (buf : Bool) : State :=
  State.reset.onSpi fun p => { p with ctrl := { p.ctrl with spe := true, mstr := true, buf := buf } }

/-- An idle socket's SR put at `sr` and its command at `c`. -/
def sockAt (n : SockIx) (sr : SockStatus) (mr c : Byte) : State :=
  State.reset.onSock n fun k => { k with sr := sr, mr := mr, crpend := c }

/-! ### WellFormed: an ill-formed term for each check -/

theorem test_wf_rdReserved : (Instr.rdReserved 0x0A).wf = false ∧ (Instr.rdReserved 0x0B).wf = true := by decide
theorem test_wf_wrReserved : (Instr.wrReserved 0x10 0).wf = false ∧ (Instr.wrReserved 0x18 0).wf = true := by decide
theorem test_wf_pinReserved : (Instr.pinReserved 0).wf = false ∧ (Instr.pinReserved 1).wf = false ∧
    (Instr.pinReserved 2).wf = true := by decide
theorem test_wf_frameCommonRead : (Instr.frameCommonRead 0 .fdm1 2).wf = false := by decide
theorem test_wf_frameCommonWrite : (Instr.frameCommonWrite 0 .fdm2 [0, 0, 0]).wf = false := by decide
theorem test_wf_frameSockRegRead : (Instr.frameSockRegRead 0 0 .fdm4 5).wf = false := by decide
theorem test_wf_frameSockRegWrite : (Instr.frameSockRegWrite 0 0 .fdm1 [0, 0]).wf = false := by decide
theorem test_wf_frameTxBufRead : (Instr.frameTxBufRead 0 0 .fdm2 3).wf = false := by decide
theorem test_wf_frameTxBufWrite : (Instr.frameTxBufWrite 0 0 .fdm1 [0, 0]).wf = false := by decide
theorem test_wf_frameRxBufRead : (Instr.frameRxBufRead 0 0 .fdm1 2).wf = false := by decide
theorem test_wf_frameRxBufWrite : (Instr.frameRxBufWrite 0 0 .fdm1 [0, 0]).wf = false := by decide
theorem test_wf_cmdReserved : (Instr.cmdReserved 0 0x00).wf = false ∧ (Instr.cmdReserved 0 0x21).wf = false ∧
    (Instr.cmdReserved 0 0x03).wf = true := by decide

/-! ### Decode: every constructor from a word written out from R58 to R66 -/

theorem test_decode_uart_reads :
    [0x00000, 0x00100, 0x00200, 0x00300, 0x00400, 0x00500, 0x00600, 0x00700, 0x00800, 0x00900, 0x00A00].map decodeHreq =
      [.rdUartData, .rdUartStatus, .rdUartCtrl, .rdUartFrame, .rdUartBaud, .rdUartDivl, .rdUartDivh, .rdUartRxcnt,
        .rdUartTxcnt, .rdUartErr, .rdUartCmd] := by decide

theorem test_decode_uart_writes :
    [0x10048, 0x10108, 0x1021B, 0x1030B, 0x10408, 0x10501, 0x10602, 0x10703, 0x10804, 0x10907, 0x10A03].map decodeHreq =
      [.wrUartData 0x48, .wrUartStatus 0x08, .wrUartCtrl 0x1B, .wrUartFrame 0x0B, .wrUartBaud 0x08, .wrUartDivl 0x01,
        .wrUartDivh 0x02, .wrUartRxcnt 0x03, .wrUartTxcnt 0x04, .wrUartErr 0x07, .wrUartCmd 0x03] := by decide

theorem test_decode_spi_reads :
    [0x01000, 0x01100, 0x01200, 0x01300, 0x01400, 0x01500, 0x01600, 0x01700].map decodeHreq =
      [.rdSpiData, .rdSpiStatus, .rdSpiCtrl, .rdSpiClksel, .rdSpiSs, .rdSpiRxcnt, .rdSpiTxcnt, .rdSpiCmd] := by decide

theorem test_decode_spi_writes :
    [0x110A5, 0x11104, 0x11223, 0x11302, 0x11480, 0x11501, 0x11602, 0x11704].map decodeHreq =
      [.wrSpiData 0xA5, .wrSpiStatus 0x04, .wrSpiCtrl 0x23, .wrSpiClksel 0x02, .wrSpiSs 0x80, .wrSpiRxcnt 0x01,
        .wrSpiTxcnt 0x02, .wrSpiCmd 0x04] := by decide

theorem test_decode_reserved_offsets :
    [0x00B00, 0x00F00, 0x01800, 0x0FF00, 0x10B12, 0x118FF].map decodeHreq =
      [.rdReserved 0x0B, .rdReserved 0x0F, .rdReserved 0x18, .rdReserved 0xFF, .wrReserved 0x0B 0x12,
        .wrReserved 0x18 0xFF] := by decide

theorem test_decode_pins :
    [0x20000, 0x20001, 0x20002, 0x20004, 0x3FFFF].map decodeHreq =
      [.pinSfpHardReset, .pinDelaySettle, .pinReserved 2, .pinReserved 4, .pinReserved 0x1FFFF] := by decide

theorem test_decode_rbop :
    decodeRbop .utx 0x005 = .rbPush .utx 0x05 ∧ decodeRbop .srx 0x100 = .rbPop .srx ∧
      decodeRbop .stx 0x200 = .rbCount .stx ∧ decodeRbop .urx 0x300 = .rbClear .urx := by decide

theorem test_decode_common_frames :
    decode (.frame [0x00, 0x0F, 0x00, 0, 0, 0, 0]) = .ok (.frameCommonRead 0x000F .vdm 4) ∧
      decode (.frame [0x00, 0x00, 0x04, 0x80]) = .ok (.frameCommonWrite 0x0000 .vdm [0x80]) := by decide

theorem test_decode_socket_frames :
    decode (.frame [0x00, 0x03, 0x09, 0]) = .ok (.frameSockRegRead 0 0x0003 .fdm1 1) ∧
      decode (.frame [0x00, 0x04, 0x0C, 0x00, 0x50]) = .ok (.frameSockRegWrite 0 0x0004 .vdm [0x00, 0x50]) := by decide

theorem test_decode_buffer_frames :
    decode (.frame [0x08, 0x01, 0x11, 0]) = .ok (.frameTxBufRead 0 0x0801 .fdm1 1) ∧
      decode (.frame [0x08, 0x01, 0x14, 0x41]) = .ok (.frameTxBufWrite 0 0x0801 .vdm [0x41]) ∧
      decode (.frame [0x00, 0x00, 0xFA, 0, 0]) = .ok (.frameRxBufRead 7 0x0000 .fdm2 2) ∧
      decode (.frame [0x00, 0x00, 0x1C, 0x00]) = .ok (.frameRxBufWrite 0 0x0000 .vdm [0x00]) := by decide

theorem test_decode_reserved_frames :
    decode (.frame [0, 0, 0x20]) = .ok (.frameReservedBsb4 0 false .vdm []) ∧
      decode (.frame [0, 1, 0x44]) = .ok (.frameReservedBsb8 1 true .vdm []) ∧
      decode (.frame [0, 0, 0x61]) = .ok (.frameReservedBsb12 0 false .fdm1 []) ∧
      decode (.frame [0, 0, 0x80]) = .ok (.frameReservedBsb16 0 false .vdm []) ∧
      decode (.frame [0, 0, 0xA0]) = .ok (.frameReservedBsb20 0 false .vdm []) ∧
      decode (.frame [0, 0, 0xC0]) = .ok (.frameReservedBsb24 0 false .vdm []) ∧
      decode (.frame [0, 0, 0xE7, 9]) = .ok (.frameReservedBsb28 0 true .fdm4 [9]) := by decide

theorem test_decode_rejects :
    decode (.frame [0x00, 0x0F]) = .error .headerCutShort ∧
      decode (.frame [0x00, 0x03, 0x09, 0, 0]) = .error .chainedFrames := by decide

theorem test_decode_commands :
    [0x00, 0x01, 0x02, 0x04, 0x08, 0x10, 0x20, 0x21, 0x22, 0x40, 0x03].map (decodeSncmd 3) =
      [.cmdNone 3, .cmdOpen 3, .cmdListen 3, .cmdConnect 3, .cmdDiscon 3, .cmdClose 3, .cmdSend 3, .cmdSendMac 3,
        .cmdSendKeep 3, .cmdRecv 3, .cmdReserved 3 0x03] := by decide

theorem test_table_words :
    decodeTableWord 24 0x10048 = some (.wrUartData 0x48) ∧
      decodeTableWord 24 0x20000 = some .pinSfpHardReset ∧
      decodeTableWord 16 0x300 = some (.rbClear .urx) ∧
      decodeTableWord 24 0x001A5 = some .rdUartStatus ∧
      decodeTableWord 24 0x000020 = some (.frameReservedBsb4 0 false .vdm [0]) ∧
      decodeTableWord 24 0x0F0004 = some (.frameCommonWrite 0x0F00 .vdm [0]) ∧
      decodeTableWord 8 0x21 = some (.cmdSendMac 0) := by decide

/-- A placed word is what the next step runs. -/
theorem test_withFetchWord :
    step (State.reset.withFetchWord 24 0x10048) = .next (after (.wrUartData 0x48) State.reset) := rfl

/-- A placed RBOP runs at the port that issues it. -/
theorem test_withFetchWord_rbop :
    step (State.reset.withFetchWord 16 0x005) = .next (after (.rbPush .urx 0x05) State.reset) ∧
      step (State.reset.withFetchWord 16 0x100) = .next (after (.rbPop .urx) State.reset) ∧
      step (State.reset.withFetchWord 16 0x200) = .next (after (.rbCount .urx) State.reset) ∧
      step (State.reset.withFetchWord 16 0x300) = .next (after (.rbClear .urx) State.reset) := ⟨rfl, rfl, rfl, rfl⟩

/-! ### Reset (R187, R188, R38) -/

theorem test_reset_divisor : State.reset.uart.div = 0x0067 ∧ State.reset.uart.frame = ⟨3, false, .absent⟩ := by decide

theorem test_reset_buffers :
    (State.reset.sock 0).txsz = 2 ∧ (State.reset.sock 7).rxsz = 2 ∧
      (∀ n, Memory.wf (State.reset.sock n).txbuf = true ∧ Memory.wf (State.reset.sock n).rxbuf = true) := by decide

/-! ### UART register accesses -/

theorem test_wrUartData : (after (.wrUartData 0x48) State.reset).utx = ringOf 4 [0x48] := by decide
theorem test_wrUartData_full :
    (after (.wrUartData 5) { State.reset with utx := ringOf 4 [1, 2, 3, 4] }).uart.flags.txovf = true := by decide
theorem test_rdUartData :
    let t := after .rdUartData { State.reset with urx := ringOf 4 [0x48, 0x69] }
    lastRead t = some 0x48 ∧ t.urx.count = 1 := by decide
theorem test_rdUartData_empty :
    let t := after .rdUartData State.reset
    lastRead t = some 0x00 ∧ t.uart.flags.rxuf = true := by decide
theorem test_rdUartStatus : lastRead (after .rdUartStatus { State.reset with urx := ringOf 4 [7] }) = some 0x01 := by
  decide
theorem test_rdUartStatus_busy : lastRead (after .rdUartStatus { State.reset with utx := ringOf 4 [7] }) = some 0x02 := by
  decide
theorem test_wrUartStatus :
    let s := State.reset.onUart fun u => { u with flags := { u.flags with txdone := true, txc := true } }
    (after (.wrUartStatus 0x08) s).uart.flags = ⟨true, false, false, false⟩ := by decide
theorem test_rdUartCtrl : lastRead (after .rdUartCtrl (after (.wrUartCtrl 0x5B) State.reset)) = some 0x5B := by decide
theorem test_wrUartCtrl :
    let u := (after (.wrUartCtrl 0x1B) State.reset).uart
    u.ctrl.u2x = true ∧ u.div = 207 ∧ u.ctrl.rxen = true ∧ u.ctrl.txen = true ∧ u.ctrl.txie = true := by decide
theorem test_wrUartCtrl_enabled :
    let u := (after (.wrUartCtrl 0x12) (after (.wrUartCtrl 0x01) State.reset)).uart
    u.err.cfgerr = true ∧ u.ctrl.u2x = false ∧ u.ctrl.txen = true ∧ u.ctrl.rxen = false := by decide
theorem test_rdUartFrame : lastRead (after .rdUartFrame State.reset) = some 0x03 := by decide
theorem test_wrUartFrame : (after (.wrUartFrame 0x0B) State.reset).uart.frame = ⟨3, false, .even⟩ := by decide
theorem test_wrUartFrame_reserved :
    let u := (after (.wrUartFrame 0x18) State.reset).uart
    u.err.cfgerr = true ∧ u.frame = ⟨3, false, .absent⟩ := by decide
theorem test_rdUartBaud : lastRead (after .rdUartBaud State.reset) = some 0x02 := by decide
theorem test_wrUartBaud : (after (.wrUartBaud 0x08) State.reset).uart.div = 7 := by decide
theorem test_wrUartBaud_invalid :
    let s : State := { State.reset with cfg := { State.reset.cfg with fClk := 1000000 } }
    (after (.wrUartBaud 0x08) s).uart.err.cfgerr = true ∧ (after (.wrUartBaud 0x08) s).uart.baud = 2 := by decide
theorem test_rdUartDivl : lastRead (after .rdUartDivl (after (.wrUartBaud 0x00) State.reset)) = some 0x9F := by decide
theorem test_rdUartDivh : lastRead (after .rdUartDivh (after (.wrUartBaud 0x00) State.reset)) = some 0x01 := by decide
theorem test_wr_readonly :
    after (.wrUartDivl 1) State.reset = State.reset ∧ after (.wrUartDivh 1) State.reset = State.reset ∧
      after (.wrUartRxcnt 0) State.reset = State.reset ∧ after (.wrUartTxcnt 0) State.reset = State.reset := by decide
theorem test_rdUartRxcnt : lastRead (after .rdUartRxcnt { State.reset with urx := ringOf 4 [1, 2, 3] }) = some 3 := by
  decide
theorem test_rdUartTxcnt : lastRead (after .rdUartTxcnt { State.reset with utx := ringOf 4 [1, 2, 3, 4] }) = some 4 := by
  decide
theorem test_rdUartErr :
    lastRead (after .rdUartErr (State.reset.onUart fun u => { u with err := ⟨true, false, false⟩ })) = some 0x01 := by
  decide
theorem test_wrUartErr :
    (after (.wrUartErr 0x07) (State.reset.onUart fun u => { u with err := ⟨true, true, true⟩ })).uart.err =
      ⟨false, false, false⟩ := by decide
theorem test_rdUartCmd : lastRead (after .rdUartCmd State.reset) = some 0x00 := by decide
theorem test_wrUartCmd :
    let t := after (.wrUartCmd 0x01) { State.reset with urx := ringOf 4 [1, 2], utx := ringOf 4 [3] }
    t.urx.count = 0 ∧ t.utx.count = 1 := by decide

/-! ### SPI register accesses -/

theorem test_wrSpiData :
    let t := after (.wrSpiData 0xA5) (spiOn false)
    t.spi.sh = .busy 0xA5 ∧ cs t 0 = true ∧ cs t 1 = false := by decide
theorem test_wrSpiData_collision :
    let t := after (.wrSpiData 0x02) (after (.wrSpiData 0x01) (spiOn false))
    t.spi.flags.wcol = true ∧ t.spi.sh = .busy 0x01 := by decide
theorem test_rdSpiData : lastRead (after .rdSpiData { State.reset with srx := ringOf 32 [0x13] }) = some 0x13 := by decide
theorem test_rdSpiStatus :
    lastRead (after .rdSpiStatus ({ State.reset with srx := ringOf 32 [1, 2] }.onSpi fun p =>
      { p with flags := { p.flags with tc := true } })) = some 0x05 := by decide
theorem test_wrSpiStatus :
    let s := State.reset.onSpi fun p => { p with flags := ⟨true, true, false, false, true⟩ }
    (after (.wrSpiStatus 0x04) s).spi.flags = ⟨false, true, false, false, true⟩ := by decide
theorem test_rdSpiCtrl : lastRead (after .rdSpiCtrl (after (.wrSpiCtrl 0x23) State.reset)) = some 0x23 := by decide
theorem test_wrSpiCtrl : (after (.wrSpiCtrl 0x23) State.reset).spi.ctrl = ⟨true, true, false, false, false, true, false⟩ := by
  decide
theorem test_wrSpiCtrl_slave : (after (.wrSpiCtrl 0x01) State.reset).refusals = [.spiSlave] := by decide
theorem test_rdSpiClksel : lastRead (after .rdSpiClksel State.reset) = some 0x00 := by decide
theorem test_wrSpiClksel : (after (.wrSpiClksel 0x02) State.reset).spi.clksel = 2 := by decide
theorem test_wrSpiClksel_reserved :
    let p := (after (.wrSpiClksel 0x07) State.reset).spi
    p.flags.cfgerr = true ∧ p.clksel = 0 := by decide
theorem test_rdSpiSs : lastRead (after .rdSpiSs (after (.wrSpiSs 0x80) State.reset)) = some 0x80 := by decide
theorem test_wrSpiSs : cs (after (.wrSpiSs 0x81) (spiOn true)) 1 = true := by decide
theorem test_wrSpiSs_absent_line :
    let p := (after (.wrSpiSs 0x02) State.reset).spi
    p.flags.cfgerr = true ∧ p.ssidx = 0 := by decide
theorem test_rdSpiRxcnt : lastRead (after .rdSpiRxcnt { State.reset with srx := ringOf 32 [1, 2, 3, 4] }) = some 4 := by
  decide
theorem test_rdSpiTxcnt : lastRead (after .rdSpiTxcnt { State.reset with stx := ringOf 32 [1, 2, 3] }) = some 3 := by decide
theorem test_wrSpiCounts :
    after (.wrSpiRxcnt 0) State.reset = State.reset ∧ after (.wrSpiTxcnt 0) State.reset = State.reset := by decide
theorem test_rdSpiCmd : lastRead (after .rdSpiCmd State.reset) = some 0x00 := by decide
theorem test_wrSpiCmd :
    let t := after (.wrSpiCmd 0x04) { spiOn true with stx := ringOf 32 [0x00, 0x01, 0x04, 0xC0] }
    t.spi.drain = .active ∧ cs t 0 = true ∧ t.stx.count = 4 := by decide
theorem test_wrSpiCmd_clear_first :
    let t := after (.wrSpiCmd 0x06) { spiOn true with stx := ringOf 32 [0x00] }
    t.spi.drain = .idle ∧ t.stx.count = 0 := by decide

/-! ### Reserved offsets and pins -/

theorem test_rdReserved : lastRead (after (.rdReserved 0x0B) State.reset) = some 0x00 := by decide
theorem test_wrReserved : after (.wrReserved 0x0B 0x55) State.reset = State.reset := by decide
theorem test_pinSfpHardReset :
    let t := after .pinSfpHardReset (State.reset.onSock 2 fun k => { k with sr := .udp })
    (t.sock 2).sr = .closed ∧ t.sfp.resetting = true ∧ t.sfp.regs.mr = 0x00 := by decide
theorem test_pinDelaySettle : after .pinDelaySettle State.reset = State.reset := by decide
theorem test_pinReserved : (after (.pinReserved 2) State.reset).refusals = [.hostPinop] := by decide
theorem test_hostWidth :
    let t := moved .host { State.reset with hostq := [⟨16, 0x10048⟩] }
    t.refusals = [.hostWidth] ∧ t.utx.count = 0 := by decide

/-! ### Ring ports -/

theorem test_rbPush :
    let t := after (.rbPush .utx 0x05) { State.reset with utx := ⟨4, [1, 2, 3, 0], 3, 0, 3⟩ }
    t.utx = ⟨4, [1, 2, 3, 5], 0, 0, 4⟩ ∧ t.responses = [.accept true] := by decide
theorem test_rbPop :
    let t := after (.rbPop .utx) { State.reset with utx := ⟨4, [1, 2, 3, 4], 0, 0, 4⟩ }
    t.utx = ⟨4, [1, 2, 3, 4], 0, 1, 3⟩ ∧ t.responses = [.popped true 0x01] := by decide
theorem test_rbCount : (after (.rbCount .srx) { State.reset with srx := ringOf 32 [8, 9] }).responses = [.count 2] := by
  decide
theorem test_rbClear :
    (after (.rbClear .urx) { State.reset with urx := ⟨4, [1, 2, 3, 4], 1, 2, 3⟩ }).urx = ⟨4, [1, 2, 3, 4], 0, 0, 0⟩ := by
  decide

/-- A port's operation is its agent's alone, and only the port that issues it takes it (R71). -/
theorem test_ports :
    (moved (.ring .host .producer .utx 0x005) State.reset).utx.count = 1 ∧
      (moved (.ring .utx .producer .utx 0x005) State.reset).utx.count = 0 ∧
      (moved (.ring .host .consumer .utx 0x005) State.reset).utx.count = 0 ∧
      (moved (.ring .urx .producer .urx 0x300) { State.reset with urx := ringOf 4 [1] }).urx.count = 1 ∧
      (moved (.ring .spi .consumer .stx 0x200) State.reset).responses = [.count 0] := by decide

/-! ### Frames -/

theorem test_frameCommonRead :
    let s := State.reset.onRegs fun r => { r with sipr := #v[0xC0, 0xA8, 0x00, 0x64] }
    let t := after (.frameCommonRead 0x000F .vdm 4) s
    lastMiso t 3 = some 0xC0 ∧ lastMiso t 4 = some 0xA8 ∧ lastMiso t 5 = some 0x00 ∧ lastMiso t 6 = some 0x64 := by decide
theorem test_frameCommonWrite :
    (after (.frameCommonWrite 0x0009 .vdm [0x00, 0x08, 0xDC]) State.reset).sfp.regs.shar =
      #v[0x00, 0x08, 0xDC, 0, 0, 0] := by decide
theorem test_frameCommonWrite_softReset :
    let t := after (.frameCommonWrite 0x0000 .vdm [0x80]) (State.reset.onSock 1 fun k => { k with rxsz := 8 })
    t.sfp.resetting = true ∧ t.sfp.regs.mr = 0x80 ∧ (t.sock 1).rxsz = 2 := by decide
theorem test_frameReserved :
    let s := State.reset
    (after (.frameReservedBsb4 0 true .vdm [1]) s).faults = [.sfpReservedBsb] ∧
      (after (.frameReservedBsb8 0 true .vdm []) s).faults = [.sfpReservedBsb] ∧
      (after (.frameReservedBsb12 0 true .vdm []) s).faults = [.sfpReservedBsb] ∧
      (after (.frameReservedBsb16 0 true .vdm []) s).faults = [.sfpReservedBsb] ∧
      (after (.frameReservedBsb20 0 true .vdm []) s).faults = [.sfpReservedBsb] ∧
      (after (.frameReservedBsb24 0 true .vdm []) s).faults = [.sfpReservedBsb] ∧
      (after (.frameReservedBsb28 0 true .vdm []) s).faults = [.sfpReservedBsb] := by decide
theorem test_frameSockRegRead : lastMiso (after (.frameSockRegRead 0 0x0003 .fdm1 1) (sockAt 0 .init 1 0)) 3 = some 0x13 := by
  decide
theorem test_frameSockRegWrite :
    let k := (after (.frameSockRegWrite 0 0x0004 .vdm [0x00, 0x50]) State.reset).sock 0
    k.port0 = 0x00 ∧ k.port1 = 0x50 := by decide
theorem test_frameSockRegWrite_rxsz : ((after (.frameSockRegWrite 0 0x001E .vdm [0x08]) State.reset).sock 0).rxsz = 8 := by
  decide
theorem test_frameTxBufWrite :
    let k := (after (.frameTxBufWrite 0 0x0800 .vdm [0x40, 0x41]) State.reset).sock 0
    k.txbuf = [(0, 0x40), (1, 0x41)] := by decide
theorem test_frameTxBufRead :
    lastMiso (after (.frameTxBufRead 0 0x0000 .fdm1 1) (State.reset.onSock 0 fun k => { k with txbuf := [(0, 0x41)] })) 3 =
      some 0x41 := by decide
theorem test_frameRxBufRead :
    lastMiso (after (.frameRxBufRead 0 0x0000 .fdm1 1) (State.reset.onSock 0 fun k => { k with rxbuf := [(0, 0x47)] })) 3 =
      some 0x47 := by decide
theorem test_frameRxBufWrite :
    let t := after (.frameRxBufWrite 0 0x0000 .vdm [0x00]) State.reset
    t.refusals = [.sfpRxbufWrite] ∧ (t.sock 0).rxbuf = [] := by decide

/-- Vector F-7: two FDM frames chained under one assertion. -/
theorem test_chained_frames :
    let t := moved (.frame [0x00, 0x04, 0x0E, 0x00, 0x50, 0x00, 0x1E, 0x0D, 0x08]) State.reset
    (t.sock 0).port1 = 0x50 ∧ (t.sock 0).rxsz = 8 ∧ rxTotal t = 22 ∧ t.faults = [] := by decide
/-- Vector F-8: the byte after an FDM1 read is the ADDR_HI byte of a new header, which the release ends. -/
theorem test_byte_after_fdm :
    let t := moved (.frame [0x00, 0x03, 0x09, 0x00, 0x00]) State.reset
    lastMiso t 3 = some 0x00 ∧ t.sfp.phase = .idle ∧
      (slots [0x00, 0x03, 0x09, 0x00, 0x00] (assertLine State.reset)).2.sfp.phase = .addrLo := by decide

/-! ### Socket commands -/

theorem test_cmdNone : after (.cmdNone 0) State.reset = State.reset := by decide
theorem test_cmdOpen :
    let t := moved (.netTake 0) (sockAt 0 .closed 0x01 0x01)
    (t.sock 0).sr = .init ∧ (t.sock 0).crpend = 0 := by decide
theorem test_cmdOpen_macraw :
    ((after (.cmdOpen 0) (sockAt 0 .closed 0x04 0x01)).sock 0).sr = .macraw ∧
      ((after (.cmdOpen 1) (sockAt 1 .closed 0x04 0x01)).sock 1).sr = .closed := by decide
theorem test_cmdListen : ((after (.cmdListen 3) (sockAt 3 .init 1 2)).sock 3).sr = .listen := by decide
theorem test_cmdListen_refused : (after (.cmdListen 3) (sockAt 3 .udp 1 2)).refusals = [.netCmdState] := by decide
theorem test_cmdConnect : ((after (.cmdConnect 3) (sockAt 3 .init 1 4)).sock 3).sr = .synsent := by decide
theorem test_cmdDiscon_refused :
    let t := after (.cmdDiscon 0) (sockAt 0 .listen 1 8)
    t.refusals = [.netCmdState] ∧ (t.sock 0).crpend = 0 ∧ (t.sock 0).sr = .listen := by decide
theorem test_cmdClose : ((after (.cmdClose 5) (sockAt 5 .established 1 0x10)).sock 5).sr = .closed := by decide
theorem test_cmdSend :
    let t := after (.cmdSend 0) (sockAt 0 .established 1 0x20)
    (t.sock 0).sr = .established ∧ t.refusals = [] ∧ (t.sock 0).crpend = 0 := by decide
theorem test_cmdSendMac :
    (after (.cmdSendMac 0) (sockAt 0 .udp 2 0x21)).refusals = [] ∧
      (after (.cmdSendMac 0) (sockAt 0 .macraw 2 0x21)).refusals = [.netCmdState] := by decide
theorem test_cmdSendKeep :
    (after (.cmdSendKeep 0) (sockAt 0 .established 1 0x22)).refusals = [] ∧
      (after (.cmdSendKeep 0) (sockAt 0 .udp 1 0x22)).refusals = [.netCmdState] := by decide
theorem test_cmdRecv : (after (.cmdRecv 0) (sockAt 0 .udp 2 0x40)).refusals = [] := by decide
theorem test_cmdReserved : (after (.cmdReserved 0 0x03) State.reset).refusals = [.sfpCmdReserved] := by decide

/-! ### Engine steps -/

theorem test_utxStart :
    let s := (State.reset.onUart fun u => { u with ctrl := { u.ctrl with txen := true } })
    let t := moved .utxStart { s with utx := ringOf 4 [0x48] }
    t.utx.count = 0 ∧ t.uart.txsh = .busy 0x48 ⟨3, false, .absent⟩ := by decide
theorem test_utxFinish :
    let t := moved .utxFinish (State.reset.onUart fun u => { u with txsh := .busy 0x48 ⟨3, false, .absent⟩ })
    t.trace = [.uartTxFrame 0x48 8 none 1] ∧ t.uart.flags.txc = true ∧ t.uart.flags.txdone = true := by decide
/-- R83's example: 0x41 in 8 bits has even parity bit 0 and odd parity bit 1. -/
theorem test_parity : parityBit .even 0x41 = some false ∧ parityBit .odd 0x41 = some true := by decide
theorem test_line_full :
    let s := (State.reset.onUart fun u => { u with ctrl := { u.ctrl with rxen := true } })
    let full : State := { s with urx := ringOf 4 [1, 2, 3, 4] }
    (moved (.line 0x55 false true true) full).urx = full.urx ∧
      (moved (.line 0x55 false true true) full).uart = full.uart := by decide
theorem test_spiDrain :
    let s := { spiOn true with stx := ringOf 32 [0x00] }.onSpi fun p => { p with drain := .active, auto := true }
    let t := moved .spiDrain s
    t.spi.sh = .busy 0x00 ∧ t.stx.count = 0 ∧ cs t 0 = true := by decide
theorem test_spiComplete :
    let t := moved .spiComplete (after (.wrSpiData 0x00) (spiOn false))
    t.trace.length = 1 ∧ t.spi.flags.tc = true ∧ t.srx.count = 1 ∧ cs t 0 = false := by decide
theorem test_sfpSettle :
    let t := moved .sfpSettle (State.reset.onSfp fun x => { x with resetting := true, regs := { x.regs with mr := 0x80 } })
    t.sfp.resetting = false ∧ t.sfp.regs.mr = 0x00 := by decide
theorem test_slot_while_settling :
    let s := (after (.wrSpiData 0x00) (spiOn false)).onSfp fun x => { x with resetting := true }
    (moved .spiComplete s).faults = [.sfpFrameDuringReset] := by decide
theorem test_slot_link_mode :
    let s := (after (.wrSpiData 0x00) (spiOn false)).onSpi fun p => { p with ctrl := { p.ctrl with cpha := true } }
    (moved .spiComplete s).faults = [.sfpLinkMode] := by decide
theorem test_netStatus :
    ((moved (.netStatus 0 .closeWait) (sockAt 0 .established 1 0)).sock 0).sr = .closeWait ∧
      ((moved (.netStatus 0 .closed) (sockAt 0 .udp 1 0)).sock 0).sr = .udp := by decide
theorem test_netRx :
    ((moved (.netRx 0 2047 0x47) (sockAt 0 .udp 1 0)).sock 0).rxbuf = [(2047, 0x47)] ∧
      ((moved (.netRx 0 2048 0x47) (sockAt 0 .udp 1 0)).sock 0).rxbuf = [] := by decide
theorem test_blockReset :
    let s := (State.reset.onSock 0 fun k => { k with port1 := 80 })
    let t := moved .blockReset { after (.wrSpiCtrl 0x23) s with faults := [.sfpLinkMode] }
    t.spi.ctrl.spe = false ∧ (t.sock 0).port1 = 80 ∧ t.faults = [.sfpLinkMode] := by decide

/-! ### A witness for each statement's hypotheses

Each names the statement, and gives a concrete state and operands that meet its hypotheses together; where clauses have
hypotheses of their own, a witness at a boundary of each. -/

/-- A state with an enabled, buffered SPI master in a drain: one byte in the shifter, one waiting. -/
def draining : State :=
  { spiOn true with stx := ringOf 32 [0x55] }.onSpi fun p => { p with sh := .busy 0xAA, drain := .active, auto := true }

theorem rings_reset : RingsOk State.reset :=
  ⟨⟨rfl, by decide, by decide, by decide, by decide, by decide⟩,
    ⟨rfl, by decide, by decide, by decide, by decide, by decide⟩,
    ⟨rfl, by decide, by decide, by decide, by decide, by decide⟩,
    ⟨rfl, by decide, by decide, by decide, by decide, by decide⟩⟩

theorem divisor_reset : DivisorOk State.reset := ⟨by decide, by decide⟩

theorem spi_reset : SpiOk State.reset := ⟨by decide, by decide, by decide, by decide, by decide⟩

theorem spi_draining : SpiOk draining := ⟨by decide, by decide, by decide, by decide, by decide⟩

theorem sfp_reset : SfpOk State.reset :=
  ⟨by decide, by decide, by decide, by decide, by decide, fun n =>
    ⟨by revert n; decide, by revert n; decide, by revert n; decide,
      ⟨by revert n; decide, by revert n; decide⟩, ⟨by revert n; decide, by revert n; decide⟩⟩⟩

theorem frameReady_reset : FrameReady State.reset := ⟨by decide, by decide, by decide, by decide⟩

theorem totals_reset : TotalsOk State.reset := ⟨by decide, by decide⟩

theorem witness_DecodeOfEncodeIsIdentity :
    (Instr.frameTxBufWrite 7 0xFFFF .fdm4 [1, 2, 3, 4]).wf = true ∧ (Instr.rdReserved 0xFF).wf = true ∧
      (Instr.pinReserved 2).wf = true ∧ (Instr.cmdReserved 7 0xFF).wf = true := by decide

theorem witness_DecodedInstructionsAreWellFormed :
    decode (.frame [0, 3, 9, 0]) = .ok (.frameSockRegRead 0 3 .fdm1 1) := by decide

theorem witness_StepRunsTheDecodedRequest_host :
    let s := { State.reset with hostq := [⟨8, 0x10048⟩], sched := [.host] }
    s.sched = .host :: [] ∧ s.hostq = ⟨8, 0x10048⟩ :: [] ∧ ((0x10048 : BitVec 18).getLsbD 17 = true ∨ 8 = 8) := by decide

theorem witness_StepRunsTheDecodedRequest_ring :
    { State.reset with sched := [.ring .spi .producer .srx 0x0AA] }.sched = .ring .spi .producer .srx 0x0AA :: [] ∧
      (0x0AA : BitVec 10).extractLsb' 8 2 = 0 ∧ (0x3AA : BitVec 10).extractLsb' 8 2 = 3 := by decide

theorem witness_StepRunsTheDecodedRequest_frame :
    decodeFrame [0, 3, 9, 0] = .ok (.frameSockRegRead 0 3 .fdm1 1) ∧
      { State.reset with sched := [.frame [0, 3, 9, 0]] }.sched = [.frame [0, 3, 9, 0]] := by decide

theorem witness_StepRunsTheDecodedRequest_take :
    let s := { sockAt 0 .closed 1 1 with sched := [.netTake 0] }
    s.sched = .netTake 0 :: [] ∧ s.sfp.resetting = false := by decide

theorem witness_RefusedHostRequestsChangeNothing :
    (0x1FFFF : BitVec 18).getLsbD 17 = false ∧ (16 : Nat) ≠ 8 := by decide

theorem witness_StepKeepsRings :
    RingsOk State.reset ∧ step (State.reset.withFetchWord 24 0x10048) = .next (after (.wrUartData 0x48) State.reset) :=
  ⟨rings_reset, rfl⟩

/-- A step from a state with the invariant, whose move writes the divisor. -/
theorem witness_StepKeepsDivisor :
    DivisorOk (State.reset.withFetchWord 24 0x10408) ∧
      ∃ t, step (State.reset.withFetchWord 24 0x10408) = .next t :=
  ⟨⟨by decide, by decide⟩, _, rfl⟩

theorem witness_StepKeepsSpiSequencing :
    SpiOk { draining with sched := [.spiComplete] } ∧ ∃ t, step { draining with sched := [.spiComplete] } = .next t :=
  ⟨⟨by decide, by decide, by decide, by decide, by decide⟩, _, rfl⟩

theorem witness_StepKeepsSfp :
    SfpOk State.reset ∧ ∃ t, step State.reset = .next t := ⟨sfp_reset, _, rfl⟩

theorem witness_LaunchHasTheInvariants :
    Config.vectors.wf = true ∧
      Config.wf { Config.vectors with maxCap := 1, capUrx := 1, capUtx := 1, capSrx := 1, capStx := 1, fClk := 153600,
                                      nSs := 1 } = true ∧
      Config.wf { Config.vectors with fClk := 153600 * 65537 - 1, nSs := 8, sfpSs := 7, capStx := 255 } = true := by decide

theorem witness_RegistersAfterBlockReset : 153600 ≤ State.reset.cfg.fClk := by decide

theorem witness_BlockResetKeepsTheSfp : { draining with sched := [.blockReset] }.sched = .blockReset :: [] := rfl

theorem witness_RingRefinesFifoQueue :
    (⟨4, [1, 2, 3, 4], 3, 2, 1⟩ : Ring).Ok 4 ∧ (⟨1, [7], 0, 0, 1⟩ : Ring).Ok 1 ∧
      (⟨4, [1, 2, 3, 4], 1, 2, 3⟩ : Ring).contents = [3, 4, 1] :=
  ⟨⟨rfl, by decide, by decide, by decide, by decide, by decide⟩,
    ⟨rfl, by decide, by decide, by decide, by decide, by decide⟩, by decide⟩

theorem witness_EnginesFillReceiveAndDrainTransmit :
    blockMove .spiComplete = true ∧ Move.spiComplete ≠ .host ∧ Move.spiComplete ≠ .blockReset ∧
      { draining with sched := [.spiComplete] }.sched = .spiComplete :: [] := by decide

theorem witness_DivisorReadsJoin : DivisorOk State.reset := divisor_reset

theorem witness_CountRegistersReadTheCounts : State.reset.cfg.wf = true ∧ RingsOk State.reset :=
  ⟨by decide, rings_reset⟩

/-- 0x0F repeats the configuration bits of reset; 0x10 changes U2X, taken while disabled, ignored while enabled; at
F_CLK = 16 MHz with code 0 no divisor is out of range, at 1 MHz with code 8 U2X = 0 is. -/
theorem witness_UartCtrlWriteEffect :
    ((0x0F : Byte).getLsbD 4 = State.reset.uart.ctrl.u2x ∧ (0x0F : Byte).getLsbD 5 = State.reset.uart.ctrl.txmode ∧
      (0x0F : Byte).getLsbD 6 = State.reset.uart.ctrl.loop) ∧
    (0x10 : Byte).getLsbD 4 ≠ State.reset.uart.ctrl.u2x ∧
    (after (.wrUartCtrl 0x01) State.reset).uart.ctrl.rxen = true ∧
    (0 ≤ divisor 16000000 (baudTab 2) true ∧ divisor 16000000 (baudTab 2) true ≤ 0xFFFF) ∧
    ¬(0 ≤ divisor 1000000 (baudTab 8) false) := by decide

theorem witness_UartFrameWriteEffect :
    State.reset.uart.enabled = false ∧ (after (.wrUartCtrl 0x02) State.reset).uart.enabled = true ∧
      (0x18 : Byte).extractLsb' 3 2 = 3 ∧ (0x17 : Byte).extractLsb' 3 2 ≠ 3 := by decide

theorem witness_UartBaudWriteEffect :
    State.reset.uart.enabled = false ∧ (after (.wrUartCtrl 0x02) State.reset).uart.enabled = true ∧
      8 < ((0x09 : Byte).extractLsb' 0 4).toNat ∧ ((0xF8 : Byte).extractLsb' 0 4).toNat = 8 ∧
      ((0x00 : Byte).extractLsb' 0 4).toNat = 0 := by decide

theorem witness_UtxCompletesTheFrame :
    let s := State.reset.onUart fun u => { u with txsh := .busy 0x41 ⟨0, true, .odd⟩ }
    s.uart.txsh = .busy 0x41 ⟨0, true, .odd⟩ ∧ s.uart.ctrl.loop = false ∧
      (after (.wrUartCtrl 0x40) s).uart.txsh = .busy 0x41 ⟨0, true, .odd⟩ ∧
      (after (.wrUartCtrl 0x40) s).uart.ctrl.loop = true := by decide

/-- The format unchanged, and a frame loaded without parity and received with it. -/
theorem witness_LoopbackDeliversWhatWasSent :
    let s := (after (.wrUartCtrl 0x43) State.reset).onUart fun u => { u with txsh := .busy 0x41 u.frame }
    let t := s.onUart fun u => { u with frame := ⟨3, false, .even⟩ }
    s.uart.txsh = .busy 0x41 s.uart.frame ∧ s.uart.ctrl.loop = true ∧ s.uart.ctrl.rxen = true ∧
      t.uart.txsh = .busy 0x41 ⟨3, false, .absent⟩ ∧ t.uart.frame.par ≠ .absent := by decide

theorem witness_LineFrameIsReceived :
    (State.reset.uart.ctrl.rxen = false) ∧
      (after (.wrUartCtrl 0x01) State.reset).uart.ctrl.rxen = true ∧
      (after (.wrUartCtrl 0x01) State.reset).uart.ctrl.loop = false ∧
      (after (.wrUartCtrl 0x41) State.reset).uart.ctrl.loop = true := by decide

theorem witness_InterruptsAreLevels : (0x0C : Byte).getLsbD 2 = true ∧ (0x0C : Byte).getLsbD 3 = true := by decide

theorem witness_SpiCtrlWriteEffect :
    (after (.wrSpiCtrl 0x01) State.reset).spi.ctrl.spe = true ∧
      (after (.wrSpiCtrl 0x01) State.reset).spi.ctrl.mstr = false ∧
      (after (.wrSpiCtrl 0x03) State.reset).spi.ctrl.mstr = true := by decide

theorem witness_SpiSelectWriteEffects :
    ((0xF8 : Byte).extractLsb' 0 3).toNat = State.reset.spi.clksel.val ∧
      ((0x07 : Byte).extractLsb' 0 3).toNat = 7 ∧ ((0x06 : Byte).extractLsb' 0 3).toNat = (6 : Fin 7).val ∧
      State.reset.spi.ctrl.spe = false ∧ (spiOn true).spi.ctrl.spe = true := by decide

theorem witness_NoHostAccessStopsATransfer :
    isAccess (.wrSpiCtrl 0x00) = true ∧ SpiOk draining ∧ draining.spi.busy = true ∧
      ∃ t, exec (.wrSpiCtrl 0x00) draining = .next t := ⟨by decide, spi_draining, by decide, _, rfl⟩

theorem witness_SpiCompletionEffect :
    draining.spi.sh = .busy 0xAA ∧ draining.spi.ssidx.toNat = draining.cfg.sfpSs ∧
      (draining.onSpi fun p => { p with ssidx := 1 }).spi.ssidx.toNat ≠ draining.cfg.sfpSs := by decide

theorem witness_DrainRunsToItsEnd :
    let s := { draining with sched := [.spiComplete, .spiDrain, .spiComplete, .spiDrain] }
    SpiOk s ∧ s.spi.drain = .active ∧
      s.sched = (List.replicate (s.stx.count + 1) [Move.spiComplete, .spiDrain]).flatten ++ [] :=
  ⟨⟨by decide, by decide, by decide, by decide, by decide⟩, by decide, by decide⟩

theorem witness_ChipSelectEdgesFrameTheBytes :
    { draining with sched := [.spiComplete] }.sched = .spiComplete :: [] := rfl

theorem witness_SlotFaultsLeaveTheSfp :
    (after .pinSfpHardReset State.reset).sfp.resetting = true ∧
      (let s := spiOn true
       s.sfp.resetting = false ∧ ¬((after (.wrSpiCtrl 0x15) State.reset).spi.ctrl.dord = false ∧
        (after (.wrSpiCtrl 0x15) State.reset).spi.ctrl.cpol = (after (.wrSpiCtrl 0x15) State.reset).spi.ctrl.cpha)) := by
  decide

theorem witness_HeaderBytesAreLatched :
    let s := State.reset.onSfp fun x => { x with phase := .addrHi, csPrev := true }
    s.sfp.resetting = false ∧ linkOk s = true ∧ s.sfp.phase = .addrHi ∧
      ((0x20 : Byte).extractLsb' 3 2 = 0 ∧ (0x20 : Byte).extractLsb' 5 3 ≠ 0) ∧
      (0x00 : Byte).extractLsb' 5 3 = 0 ∧ (0x28 : Byte).extractLsb' 3 2 ≠ 0 := by decide

/-- A read and a write slot in the data phase, the last of an FDM frame and not. -/
theorem witness_HeaderBytesAreLatched_data :
    let s := State.reset.onSfp fun x => { x with phase := .data, csPrev := true, addr := 0x0012, ctl := 0x07, n := 3 }
    s.sfp.resetting = false ∧ linkOk s = true ∧ s.sfp.phase = .data ∧ s.sfp.ctl.getLsbD 2 = true ∧
      (s.sfp.ctl.extractLsb' 0 2 = 3 ∧ s.sfp.n + 1 = 4) ∧ (0x00 : Byte).extractLsb' 0 2 = 0 ∧
      (0x00 : Byte).getLsbD 2 = false ∧ peek s 0 0x0012 = some 0x00 := by decide

theorem witness_ReadFramesReturnTheBytes :
    OpMode.vdm.admits 18 = true ∧ FrameReady State.reset ∧
      (∀ k, k < 18 → (peek State.reset 0 (0x0001 + BitVec.ofNat 16 k)).isSome = true) ∧
      (∀ k, k < 2 → (peek State.reset (bsbOf 7 1) (0x001E + BitVec.ofNat 16 k)).isSome = true) ∧ TotalsOk State.reset :=
  ⟨by decide, frameReady_reset, by decide, by decide, totals_reset⟩

theorem witness_CommonWriteFrameStores :
    OpMode.fdm4.admits [1, 2, 3, 4].length = true ∧ FrameReady State.reset ∧
      (∀ k, k < 4 → 1 ≤ ((0x000F : Word16) + BitVec.ofNat 16 k).toNat ∧
        ((0x000F : Word16) + BitVec.ofNat 16 k).toNat ≤ 0x12) := ⟨by decide, frameReady_reset, by decide⟩

theorem witness_IdentityRecordRoundTrip :
    (List.replicate 18 (0xA5 : Byte)).length = 18 ∧ FrameReady State.reset := ⟨by decide, frameReady_reset⟩

theorem witness_ModeRegisterWriteAndSoftReset :
    FrameReady State.reset ∧ (0x80 : Byte).getLsbD 7 = true ∧ (0x7F : Byte).getLsbD 7 = false :=
  ⟨frameReady_reset, by decide, by decide⟩

theorem witness_SocketRegisterWriteFrame :
    FrameReady State.reset ∧ OpMode.vdm.admits [0x00, 0x00, 0x50].length = true ∧
      ∀ k, k < 3 → (0x0003 : Word16) + BitVec.ofNat 16 k ∈ [(0x0000 : Word16), 0x0003, 0x0004, 0x0005] :=
  ⟨frameReady_reset, by decide, by decide⟩

theorem witness_CommandRegisterWrite :
    FrameReady State.reset ∧ (State.reset.sock 0).crpend = 0 ∧ ((sockAt 0 .closed 1 1).sock 0).crpend ≠ 0 ∧
      FrameReady (sockAt 0 .closed 1 1) ∧ (0x03 : Byte) ∉ commandCodes ∧ (0x40 : Byte) ∈ commandCodes ∧
      TotalsOk State.reset ∧ ¬TotalsOk (State.reset.onSock 0 fun k => { k with rxsz := 4 }) :=
  ⟨frameReady_reset, by decide, by decide, ⟨by decide, by decide, by decide, by decide⟩, by decide, by decide,
    totals_reset, fun h => absurd h.rx (by decide)⟩

theorem witness_BufferSizeWrite :
    FrameReady State.reset ∧ (17 : Byte).toNat ∉ [0, 1, 2, 4, 8, 16] ∧ (16 : Byte).toNat ∈ [0, 1, 2, 4, 8, 16] :=
  ⟨frameReady_reset, by decide, by decide⟩

theorem witness_TxBufferWriteFrameStores :
    OpMode.vdm.admits [1, 2].length = true ∧ FrameReady State.reset ∧ TotalsOk State.reset ∧
      legalSize (State.reset.sock 0).txsz = true ∧ (State.reset.sock 0).txsz ≠ 0 ∧
      [1, 2].length ≤ cellsOf (State.reset.sock 0).txsz :=
  ⟨by decide, frameReady_reset, totals_reset, by decide, by decide, by decide⟩

theorem witness_BufferAccessOutcomes :
    FrameReady State.reset ∧ FrameReady (State.reset.onSock 0 fun k => { k with txsz := 0 }) ∧
      FrameReady (State.reset.onSock 0 fun k => { k with txsz := 4 }) ∧
      ¬TotalsOk (State.reset.onSock 0 fun k => { k with txsz := 4 }) :=
  ⟨frameReady_reset, ⟨by decide, by decide, by decide, by decide⟩, ⟨by decide, by decide, by decide, by decide⟩,
    fun h => absurd h.tx (by decide)⟩

theorem witness_RxBufferWriteIsRefused :
    OpMode.vdm.admits [1].length = true ∧ OpMode.fdm1.admits ([] : List Byte).length = true ∧ FrameReady State.reset :=
  ⟨by decide, by decide, frameReady_reset⟩

theorem witness_UnnamedRegistersAreRefused :
    FrameReady State.reset ∧ 0x12 < (0x0013 : Word16).toNat ∧
      (0x0002 : Word16).toNat ∉ [0x00, 0x01, 0x03, 0x04, 0x05, 0x1E, 0x1F] :=
  ⟨frameReady_reset, by decide, by decide⟩

theorem witness_ReservedBlockSelectsFault : FrameReady State.reset := frameReady_reset

/-- A state for each status a command takes effect in. -/
theorem witness_CommandsTakeTheirEffect :
    ∀ sr ∈ [SockStatus.closed, .init, .established, .closeWait, .udp, .macraw],
      ((sockAt 0 sr 1 1).sock 0).sr = sr := by decide

/-- A state for each command in a status it is refused in. -/
theorem witness_CommandsElsewhereAreRefused :
    ((sockAt 7 .listen 1 1).sock 7).sr ≠ .closed ∧ ((sockAt 7 .listen 1 1).sock 7).sr ≠ .init ∧
      ((sockAt 7 .listen 1 1).sock 7).sr ∉ [.established, .closeWait, .udp, .macraw] ∧
      ((sockAt 7 .listen 1 1).sock 7).sr ≠ .udp ∧ (State.reset.sock 7).crpend = 0 := by decide

theorem witness_NetChangesOnlyItsFields :
    SfpOk State.reset ∧ (∃ x, Move.netStatus 0 .closed = .netStatus 0 x) ∧
      (∃ i v, Move.netRx 0 2047 0x47 = .netRx 0 i v) ∧
      (∃ t, runMove (.netStatus 0 .closed) State.reset = .next t) ∧
      ∃ t, runMove (.netRx 0 2047 0x47) State.reset = .next t := ⟨sfp_reset, ⟨_, rfl⟩, ⟨_, _, rfl⟩, ⟨_, rfl⟩, _, rfl⟩

/-- At the reset state no weakly fair step is enabled. -/
theorem test_reset_idle (m : Move) (hm : weaklyFair m = true) : enabled State.reset m = false := by
  cases m
  case netTake n => revert n; decide
  all_goals first | rfl | cases hm

/-- An admissible run: HOST idle at the reset state. -/
theorem test_admissible_run :
    Run.Admissible { state := fun _ => State.reset, move := fun _ => .host, feed := fun _ => [] } :=
  ⟨fun _ => rfl, fun m hm k h => by
    have e := h k (Nat.le_refl k)
    rw [test_reset_idle m hm] at e
    cases e⟩

theorem witness_DelaySettleWaitsForTheSettleStep :
    let s := { after .pinSfpHardReset State.reset with
      hostq := [⟨8, pinWord 1⟩], sched := [.host, .sfpSettle, .host] }
    State.reset.sfp.resetting = false ∧ s.sfp.resetting = true ∧ s.hostq = ⟨8, pinWord 1⟩ :: [] ∧
      s.sched = .host :: .sfpSettle :: .host :: [] := by decide

end Sys2Proof.Tests
end

section
/-!
PROOFS. What a step can do, said once: every move is a sequence of small updates of one component each (`Effect`), and a step is
such a sequence followed by the SFP's look at its line (`step_cases`). An invariant of every step is then an invariant of each
small update (`step_keeps`).
-/

namespace Sys2Proof.Proofs

open Sys2Proof.Machine Sys2Proof.Machine.Laws

/-! ### The small updates of each component -/

/-- The ring operations that change a ring (R74, R75, R77). -/
inductive RingOp (r : Ring) : Ring → Prop
  | push (v : Byte) : RingOp r (r.push v).2
  | pop : RingOp r r.pop.2
  | clear : RingOp r r.clear

/-- The updates of the UART, by what they do to the baud generator: they leave it; or they write DIV with the divisor of the
code and U2X they leave behind, where these were there before or give a valid divisor (R89, R93); or they reset it (R187). -/
inductive UartOp (c : Config) (u : Uart) : Uart → Prop
  | sameRate {u' : Uart} (baud : u'.baud = u.baud) (u2x : u'.ctrl.u2x = u.ctrl.u2x) (div : u'.div = u.div) : UartOp c u u'
  | newRate {u' : Uart}
      (valid : (u'.baud = u.baud ∧ u'.ctrl.u2x = u.ctrl.u2x) ∨
        divisorValid (divisor c.fClk (baudTab u'.baud) u'.ctrl.u2x) = true)
      (div : u'.div = divBits (divisor c.fClk (baudTab u'.baud) u'.ctrl.u2x)) : UartOp c u u'
  | reset : UartOp c u (uartReset c)

/-- The updates of the SPI master, each with the condition its rule makes it under (R112 to R129, R187). -/
inductive SpiOp (c : Config) (p : Spi) : Spi → Prop
  | flags (f : SpiFlags) : SpiOp c p { p with flags := f }
  | clksel (k : Fin 7) : SpiOp c p { p with clksel := k }
  | spie (b : Bool) : SpiOp c p { p with ctrl := { p.ctrl with spie := b } }
  | configure (k : SpiCtrl) (off : p.ctrl.spe = false) (off' : k.spe = false) : SpiOp c p { p with ctrl := k }
  | enable (b : Bool) (rest : p.busy = false) : SpiOp c p { p with ctrl := { p.ctrl with spe := b } }
  | select (hold : Bool) (i : BitVec 3) (rest : p.busy = false) (line : i.toNat < c.nSs) :
      SpiOp c p { p with hold := hold, ssidx := i }
  | load (v : Byte) (on : p.ctrl.spe = true ∨ p.drain = .active) : SpiOp c p { p with sh := .busy v, auto := true }
  | go (on : p.ctrl.spe = true) (buffered : p.ctrl.buf = true) : SpiOp c p { p with drain := .active, auto := true }
  | drained (idle : p.sh = .idle) : SpiOp c p { p with drain := .idle, auto := false }
  | byteDone : SpiOp c p p.byteDone
  | reset : SpiOp c p spiReset

/-- The updates of a socket (R148 to R155). -/
inductive SockOp (k : Socket) : Socket → Prop
  | registers (mr : Byte) (sr : SockStatus) (port0 port1 : Byte) :
      SockOp k { k with mr := mr, sr := sr, port0 := port0, port1 := port1 }
  | command (c : Byte) (known : c ∈ commandCodes) : SockOp k { k with crpend := c }
  | taken (sr : SockStatus) : SockOp k { k with sr := sr, crpend := 0 }
  | rxsz (v : Byte) (legal : legalSize v = true) : SockOp k { k with rxsz := v, rxbuf := [] }
  | txsz (v : Byte) (legal : legalSize v = true) : SockOp k { k with txsz := v, txbuf := [] }
  | txCell (i : Nat) (v : Byte) (within : i < cellsOf k.txsz) : SockOp k { k with txbuf := k.txbuf.write i v }
  | rxCell (i : Nat) (v : Byte) (within : i < cellsOf k.rxsz) : SockOp k { k with rxbuf := k.rxbuf.write i v }

/-- The updates of the SFP: edges of its line (R131), the slots' updates of the parser (R133 to R137), the registers, the
resets and the settling (R147, R166 to R168), and the sockets. -/
inductive SfpOp (x : Sfp) : Sfp → Prop
  | edge (c : Bool) : SfpOp x (x.edge c)
  | address (a : Word16) (p : Phase) (header : x.phase ≠ .idle) (header' : p ≠ .data) :
      SfpOp x { x with addr := a, phase := p }
  | control (b : Byte) (header : x.phase ≠ .idle) (known : reservedBsb (ctlBsb b) = false) :
      SfpOp x { x with ctl := b, n := 0, phase := .data }
  | reserved (b : Byte) : SfpOp x { x with ctl := b, n := 0, phase := .idle }
  | advance (data : x.phase = .data) : SfpOp x x.advance
  | regs (r : SfpRegs) (rst : r.mr.getLsbD 7 = x.regs.mr.getLsbD 7) (socks : r.socks = x.regs.socks) :
      SfpOp x { x with regs := r }
  | softReset : SfpOp x { x with regs := { sfpRegsReset with mr := 0x80 }, resetting := true }
  | hardReset (c : Bool) :
      SfpOp x { phase := .idle, addr := 0, ctl := 0, n := 0, csPrev := c, resetting := true, regs := sfpRegsReset }
  | settle : SfpOp x { x with resetting := false, regs := { x.regs with mr := x.regs.mr &&& 0x7F } }
  | sock (n : SockIx) (k : Socket) (op : SockOp (x.regs.socks.get n) k) :
      SfpOp x { x with regs := { x.regs with socks := x.regs.socks.set n k } }

/-- One small update of the state: of one component, or of the records, the observation, the draws and the inputs. -/
inductive Effect (s : State) : State → Prop
  | aside {t : State}
      (h : t = { s with faults := t.faults, refusals := t.refusals, trace := t.trace, responses := t.responses,
                        draws := t.draws, hostq := t.hostq, sched := t.sched }) : Effect s t
  | ring (q : RingId) {r : Ring} (op : RingOp (s.ring q) r) : Effect s (s.setRing q r)
  | uart {u : Uart} (op : UartOp s.cfg s.uart u) : Effect s { s with uart := u }
  | spi {p : Spi} (op : SpiOp s.cfg s.spi p) : Effect s { s with spi := p }
  | sfp {x : Sfp} (op : SfpOp s.sfp x) : Effect s { s with sfp := x }

/-- `t` comes from `s` by small updates. -/
abbrev Reaches : State → State → Prop := Relation.ReflTransGen Effect

/-- What each small update keeps, every sequence of them keeps. -/
theorem Reaches.keeps {P : State → Prop} (hP : ∀ s t, Effect s t → P s → P t) {s t : State} (h : Reaches s t) (hs : P s) :
    P t := by
  induction h with
  | refl => exact hs
  | tail _ e ih => exact hP _ _ e ih

/-! ### Shared operations -/

/-- What reaches the SFP, the records and the draws, and leaves the SFP, is aside. -/
theorem Effect.of_sfpOnly {s t : State} (h : SfpOnly s t) (e : t.sfp = s.sfp) : Effect s t := by
  refine .aside ?_
  rw [h.1, e]

theorem Effect.raiseFault (f : Fault) (s : State) : Effect s (raiseFault f s) :=
  .of_sfpOnly (.raiseFault f s) (raiseFault_sfp f s)

theorem Effect.refuse (r : Refusal) (s : State) : Effect s (refuse r s) := .of_sfpOnly (.refuse r s) (refuse_sfp r s)

theorem Effect.checkTotal (s : State) : Effect s (checkTotal s) := .of_sfpOnly (.checkTotal s) (checkTotal_sfp s)

theorem Effect.memRead (b : Bsb) (off : Word16) (s : State) : Effect s (memRead b off s).2 :=
  .of_sfpOnly (sfpOnly_memRead b off s) (memRead_sfp b off s)

theorem Effect.draw (s : State) : Effect s (draw s).2 := .aside rfl

theorem Effect.respond (r : Response) (s : State) : Effect s (respond r s) := .aside rfl

theorem Effect.hostRead (v : Byte) (s : State) : Effect s (hostRead v s) := .aside rfl

theorem Effect.emit (e : LineEvent) (s : State) : Effect s (emit e s) := .aside rfl

theorem Effect.pushRing (q : RingId) (v : Byte) (s : State) : Effect s (pushRing q v s) := .ring q (.push v)

theorem Effect.popRing (q : RingId) (s : State) : Effect s (popRing q s) := .ring q .pop

theorem Effect.clearRing (q : RingId) (s : State) : Effect s (clearRing q s) := .ring q .clear

theorem Effect.endStep (s : State) : Effect s (endStep s) := .sfp (.edge _)

/-- A UART update through `onUart`. -/
theorem Effect.onUart {s : State} {f : Uart → Uart} (op : UartOp s.cfg s.uart (f s.uart)) : Effect s (s.onUart f) :=
  .uart op

/-- A socket's update through `onSock`. -/
theorem Effect.onSock {s : State} {n : SockIx} {f : Socket → Socket} (op : SockOp (s.sock n) (f (s.sock n))) :
    Effect s (s.onSock n f) := .sfp (.sock n _ op)

/-- A read of a DATA register pops its ring, or sets the flag `uf` sets (R85, R114). -/
theorem readData_reaches (q : RingId) {uf : State → State} (s : State) (h : Effect s (uf s)) :
    Reaches s (readData q uf s) := by
  rcases readData_cases q uf s with ⟨_, e⟩ | ⟨_, e⟩ <;> rw [e]
  · exact .tail (.single h) (.hostRead _ _)
  · exact .tail (.single (.popRing q s)) (.hostRead _ _)

/-- A write of a DATA register pushes into its ring, or sets the flag `ovf` sets (R84, R112). -/
theorem writeData_reaches (q : RingId) {ovf : State → State} (v : Byte) (s : State) (h : Effect s (ovf s)) :
    Reaches s (writeData q ovf v s) := by
  unfold writeData
  split
  · exact .single (.pushRing q v s)
  · exact .single h

/-! ### The UART (R84 to R106) -/

theorem Effect.setUartCfgerr (s : State) : Effect s (setUartCfgerr s) := .uart (.sameRate rfl rfl rfl)

theorem uartCtrlWrite_reaches (v : Byte) (s : State) : Reaches s (uartCtrlWrite v s) := by
  have config : Reaches s (uartCtrlConfig v s) := by
    unfold uartCtrlConfig
    simp only
    split
    · exact .refl
    · split
      · exact .single (.setUartCfgerr s)
      · split
        · exact .single (.setUartCfgerr s)
        · next h =>
          refine .single (.uart (.newRate ?_ rfl))
          by_cases hu : v.getLsbD 4 = s.uart.ctrl.u2x
          · exact .inl ⟨rfl, hu⟩
          · refine .inr ?_
            by_contra invalid
            exact h ⟨hu, Bool.eq_false_of_not_eq_true invalid⟩
  exact config.tail (.uart (.sameRate rfl rfl rfl))

theorem uartFrameWrite_reaches (v : Byte) (s : State) : Reaches s (uartFrameWrite v s) := by
  unfold uartFrameWrite
  split
  · split
    · exact .refl
    · exact .single (.setUartCfgerr s)
  · split
    · exact .single (.setUartCfgerr s)
    · exact .single (.uart (.sameRate rfl rfl rfl))

theorem uartBaudWrite_reaches (v : Byte) (s : State) : Reaches s (uartBaudWrite v s) := by
  unfold uartBaudWrite
  simp only
  split
  · split
    · exact .refl
    · exact .single (.setUartCfgerr s)
  · split
    · split
      · next h => exact .single (.uart (.newRate (.inr h) rfl))
      · exact .single (.setUartCfgerr s)
    · exact .single (.setUartCfgerr s)

/-- A clear bit of a CMD register clears its ring or does nothing (R102, R127). -/
theorem clearBit_reaches (b : Bool) (q : RingId) (s : State) : Reaches s (if b then clearRing q s else s) := by
  split
  · exact .single (.clearRing q s)
  · exact .refl

theorem uartCmdWrite_reaches (v : Byte) (s : State) : Reaches s (uartCmdWrite v s) :=
  (clearBit_reaches (v.getLsbD 0) .urx s).trans (clearBit_reaches (v.getLsbD 1) .utx _)

theorem receive_reaches (f : RxFrame) (s : State) : Reaches s (receive f s) := by
  unfold receive
  split
  · exact .tail (.single (.onUart (.sameRate rfl rfl rfl))) (.pushRing .urx _ _)
  · exact .refl

theorem lineFrame_reaches (f : RxFrame) (s : State) : Reaches s (lineFrame f s) := by
  unfold lineFrame
  split
  · exact .refl
  · exact receive_reaches f s

theorem utxStart_reaches (s : State) : Reaches s (utxStart s) := by
  unfold utxStart
  split
  · split
    · exact .tail (.single (.popRing .utx s)) (.uart (.sameRate rfl rfl rfl))
    · exact .refl
  · exact .refl

theorem utxFinish_reaches (s : State) : Reaches s (utxFinish s) := by
  unfold utxFinish
  split
  · exact .refl
  · refine .tail ?_ (.uart (.sameRate rfl rfl rfl))
    split
    · exact .head (.emit _ s) (receive_reaches _ _)
    · exact .single (.emit _ s)

/-! ### The SPI master (R112 to R129) -/

theorem Effect.setSpiCfgerr (s : State) : Effect s (setSpiCfgerr s) := .spi (.flags _)

/-- A load by an enabled master or in a drain (R113). -/
theorem Effect.spiLoad (v : Byte) {s : State} (on : s.spi.ctrl.spe = true ∨ s.spi.drain = .active) :
    Effect s (spiLoad v s) := by
  rcases spiLoad_cases v s with ⟨_, e⟩ | ⟨_, e⟩ <;> rw [e]
  · exact .spi (.load v on)
  · exact .spi (.flags _)

theorem spiDataWrite_reaches (v : Byte) (s : State) : Reaches s (spiDataWrite v s) := by
  unfold spiDataWrite
  split
  · exact writeData_reaches .stx v s (.spi (.flags _))
  · split
    · next h => exact .single (.spiLoad v (.inl h))
    · exact .single (.setSpiCfgerr s)

theorem spiCtrlConfig_reaches (v : Byte) (s : State) : Reaches s (spiCtrlConfig v s) := by
  unfold spiCtrlConfig
  split
  · exact .refl
  · split
    · exact .single (.setSpiCfgerr s)
    · next h => exact .single (.spi (.configure _ (by simpa using h) (by simpa using h)))

theorem spiCtrlEnable_reaches (v : Byte) (s : State) : Reaches s (spiCtrlEnable v s) := by
  unfold spiCtrlEnable
  split
  · exact .refl
  · split
    · exact .single (.setSpiCfgerr s)
    · next h => exact .single (.spi (.enable _ (by simpa using h)))

theorem spiCtrlWrite_reaches (v : Byte) (s : State) : Reaches s (spiCtrlWrite v s) := by
  have written : Reaches s ((spiCtrlEnable v (spiCtrlConfig v s)).onSpi fun p =>
      { p with ctrl := { p.ctrl with spie := v.getLsbD 6 } }) :=
    ((spiCtrlConfig_reaches v s).trans (spiCtrlEnable_reaches v _)).tail (.spi (.spie _))
  unfold spiCtrlWrite
  simp only
  split
  · exact written.tail (.refuse _ _)
  · exact written

theorem spiClkselWrite_reaches (v : Byte) (s : State) : Reaches s (spiClkselWrite v s) := by
  unfold spiClkselWrite
  simp only
  split
  · exact .refl
  · split
    · exact .single (.setSpiCfgerr s)
    · split
      · exact .single (.spi (.clksel _))
      · exact .single (.setSpiCfgerr s)

theorem spiSsWrite_reaches (v : Byte) (s : State) : Reaches s (spiSsWrite v s) := by
  unfold spiSsWrite
  split
  · exact .refl
  · split
    · exact .single (.setSpiCfgerr s)
    · next rest =>
      split
      · exact .single (.setSpiCfgerr s)
      · next line => exact .single (.spi (.select _ _ (by simpa using rest) (Nat.lt_of_not_le line)))

theorem spiGo_reaches (s : State) : Reaches s (spiGo s) := by
  unfold spiGo
  split
  · exact .single (.setSpiCfgerr s)
  · next on =>
    split
    · exact .refl
    · split
      · exact .refl
      · simp only [not_or, Bool.not_eq_false] at on
        exact .single (.spi (.go on.1 on.2))

theorem spiCmdWrite_reaches (v : Byte) (s : State) : Reaches s (spiCmdWrite v s) := by
  have cleared := (clearBit_reaches (v.getLsbD 0) .srx s).trans (clearBit_reaches (v.getLsbD 1) .stx _)
  unfold spiCmdWrite
  simp only
  split
  · exact cleared.trans (spiGo_reaches _)
  · exact cleared

theorem spiDrain_reaches (s : State) : Reaches s (spiDrain s) := by
  unfold spiDrain
  split
  · next h =>
    split
    · exact .tail (.single (.popRing .stx s)) (.spiLoad _ (.inr h.1))
    · exact .single (.spi (.drained h.2))
  · exact .refl

/-! ### The SFP (R132 to R168) -/

theorem writeMr_reaches (v : Byte) (s : State) : Reaches s (writeMr v s) := by
  unfold writeMr
  split
  · exact .single (.sfp .softReset)
  · exact .single (.sfp (.regs _ (by simp) rfl))

theorem commonWrite_reaches (r : CommonReg) (v : Byte) (s : State) : Reaches s (commonWrite r v s) := by
  cases r with
  | mr => exact writeMr_reaches v s
  | gar i => exact .single (.sfp (.regs _ rfl rfl))
  | subr i => exact .single (.sfp (.regs _ rfl rfl))
  | shar i => exact .single (.sfp (.regs _ rfl rfl))
  | sipr i => exact .single (.sfp (.regs _ rfl rfl))

theorem writeCr_reaches (n : SockIx) (c : Byte) (s : State) : Reaches s (writeCr n c s) := by
  unfold writeCr
  split
  · exact .refl
  · split
    · exact .single (.raiseFault _ s)
    · split
      · next known => exact .tail (.single (.checkTotal s)) (.onSock (.command c (by simpa using known)))
      · exact .single (.refuse _ s)

theorem writeRxsz_reaches (n : SockIx) (v : Byte) (s : State) : Reaches s (writeRxsz n v s) := by
  unfold writeRxsz
  split
  · exact .single (.raiseFault _ s)
  · next legal =>
    split
    · exact .refl
    · exact .single (.onSock (.rxsz v (by simpa using legal)))

theorem writeTxsz_reaches (n : SockIx) (v : Byte) (s : State) : Reaches s (writeTxsz n v s) := by
  unfold writeTxsz
  split
  · exact .single (.raiseFault _ s)
  · next legal =>
    split
    · exact .refl
    · exact .single (.onSock (.txsz v (by simpa using legal)))

theorem sockWrite_reaches (n : SockIx) (r : SockReg) (v : Byte) (s : State) : Reaches s (sockWrite n r v s) := by
  cases r with
  | mr => rw [sockWrite]; exact .single (.onSock (.registers v _ _ _))
  | cr => exact writeCr_reaches n v s
  | sr => exact .refl
  | port0 => rw [sockWrite]; exact .single (.onSock (.registers _ _ v _))
  | port1 => rw [sockWrite]; exact .single (.onSock (.registers _ _ _ v))
  | rxsz => exact writeRxsz_reaches n v s
  | txsz => exact writeTxsz_reaches n v s

theorem txBufWrite_reaches (n : SockIx) (off : Word16) (v : Byte) (s : State) : Reaches s (txBufWrite n off v s) := by
  unfold txBufWrite
  split
  · exact .tail (.single (.checkTotal s)) (.refuse _ _)
  · next size =>
    refine .tail (.single (.checkTotal s)) (.onSock (.txCell _ v (cellIndex_lt off ?_)))
    simpa using size

theorem memWrite_reaches (b : Bsb) (off : Word16) (v : Byte) (s : State) : Reaches s (memWrite b off v s) := by
  unfold memWrite
  split
  · split
    · split
      · exact commonWrite_reaches _ v s
      · exact .single (.refuse _ s)
    · exact .single (.raiseFault _ s)
  · split
    · exact sockWrite_reaches _ _ v s
    · exact .single (.refuse _ s)
  · exact txBufWrite_reaches _ off v s
  · exact .single (.refuse _ s)

/-- A write leaves the parser's phase (R138). -/
theorem memWrite_phase (b : Bsb) (off : Word16) (v : Byte) (s : State) :
    (memWrite b off v s).sfp.phase = s.sfp.phase := congrArg Prod.fst (memWrite_latches b off v s)

theorem dataSlot_reaches (b : Byte) {s : State} (data : s.sfp.phase = .data) : Reaches s (dataSlot b s).2 := by
  cases w : ctlWrite s.sfp.ctl with
  | false =>
    rw [dataSlot_read b w]
    exact .tail (.single (.memRead _ _ s)) (.sfp (.advance (by rw [memRead_sfp, data])))
  | true =>
    rw [dataSlot_write b w]
    exact ((memWrite_reaches _ _ b s).tail (.draw _)).tail (.sfp (.advance ((memWrite_phase _ _ b s).trans data)))

theorem ctrlSlot_reaches (b : Byte) {s : State} (ctrl : s.sfp.phase = .ctrl) : Reaches s (ctrlSlot b s) := by
  unfold ctrlSlot
  split
  · exact .tail (.single (.raiseFault _ s)) (.sfp (.reserved b))
  · next known => exact .single (.sfp (.control b (by simp [ctrl]) (by simpa using known)))

theorem sfpSlot_reaches (b : Byte) (s : State) : Reaches s (sfpSlot b s).2 := by
  unfold sfpSlot
  split
  · exact .tail (.single (.raiseFault _ s)) (.draw _)
  · split
    · split
      · exact .single (.draw s)
      · next h => exact .tail (.single (.sfp (.address _ _ (by simp [h]) (by simp)))) (.draw _)
      · next h => exact .tail (.single (.sfp (.address _ _ (by simp [h]) (by simp)))) (.draw _)
      · next h => exact (ctrlSlot_reaches b h).tail (.draw _)
      · next h => exact dataSlot_reaches b h
    · exact .tail (.single (.raiseFault _ s)) (.draw _)

theorem slots_reaches (bytes : List Byte) (s : State) : Reaches s (slots bytes s).2 := by
  induction bytes generalizing s with
  | nil => exact .refl
  | cons b rest ih => exact (sfpSlot_reaches b s).trans (ih _)

theorem runFrame_reaches (bytes : List Byte) (s : State) : Reaches s (runFrame bytes s) := by
  have asserted : Reaches s (assertLine s) := .single (.sfp (.edge true))
  exact ((asserted.trans (slots_reaches bytes _)).tail (.respond _ _)).tail (.endStep _)

theorem sfpSettle_reaches (s : State) : Reaches s (sfpSettle s) := by
  unfold sfpSettle
  split
  · exact .single (.sfp .settle)
  · exact .refl

theorem netStatus_reaches (n : SockIx) (sr : SockStatus) (s : State) : Reaches s (netStatus n sr s) := by
  unfold netStatus
  split
  · exact .single (.onSock (.registers _ sr _ _))
  · exact .refl

theorem netRx_reaches (n : SockIx) (i : Nat) (v : Byte) (s : State) : Reaches s (netRx n i v s) := by
  unfold netRx
  split
  · next allowed =>
    obtain ⟨-, -, within⟩ := allowed
    exact .single (.onSock (.rxCell i v within))
  · exact .refl

theorem takeCommand_reaches (n : SockIx) (f : SockStatus → Option SockStatus) (s : State) :
    Reaches s (takeCommand n f s) := by
  rcases takeCommand_cases n f s with ⟨sr, _, e⟩ | ⟨_, e⟩ <;> rw [e]
  · exact .single (.onSock (.taken sr))
  · exact .tail (.single (.refuse _ s)) (.onSock (.taken _))

/-- A byte's end: the slave's answer, the event, the master's registers, the received byte (R129). -/
theorem spiComplete_reaches (s : State) : Reaches s (spiComplete s) := by
  have answer : ∀ b, Reaches s (spiExchange b s).2 := fun b => by
    unfold spiExchange
    split
    · exact sfpSlot_reaches b s
    · exact .single (.draw s)
  unfold spiComplete
  split
  · exact .refl
  · next b _ => exact (((answer b).tail (.emit _ _)).tail (.spi .byteDone)).tail (.pushRing .srx _ _)

theorem blockReset_reaches (s : State) : Reaches s (blockReset s) := by
  have rings : Reaches s (clearRing .stx (clearRing .srx (clearRing .utx (clearRing .urx s)))) :=
    (((Relation.ReflTransGen.single (.clearRing .urx s)).tail (.clearRing .utx _)).tail (.clearRing .srx _)).tail
      (.clearRing .stx _)
  exact (rings.tail (.uart .reset)).tail (.spi .reset)

/-! ### The meanings, the moves and the step -/

/-- The meaning answers a next state, which comes from `s` by small updates. -/
def Answers (r : Result) (s : State) : Prop := ∃ t, r = .next t ∧ Reaches s t

theorem Answers.next {s t : State} (h : Reaches s t) : Answers (.next t) s := ⟨t, rfl, h⟩

/-- An answer that is one small update away. -/
theorem Answers.one {s t : State} (h : Effect s t) : Answers (.next t) s := .next (.single h)

theorem execPinDelaySettle_answers (s : State) : Answers (execPinDelaySettle s) s := by
  unfold execPinDelaySettle
  split
  · exact .one (.aside rfl)
  · exact .next .refl

/-- Every instruction answers a next state, by small updates. -/
theorem exec_answers (i : Instr) (s : State) : Answers (exec i s) s := by
  cases i with
  | rdUartData => exact .next (readData_reaches .urx s (.uart (.sameRate rfl rfl rfl)))
  | wrUartData v => exact .next (writeData_reaches .utx v s (.uart (.sameRate rfl rfl rfl)))
  | wrUartStatus v => exact .one (.uart (.sameRate rfl rfl rfl))
  | wrUartCtrl v => exact .next (uartCtrlWrite_reaches v s)
  | wrUartFrame v => exact .next (uartFrameWrite_reaches v s)
  | wrUartBaud v => exact .next (uartBaudWrite_reaches v s)
  | wrUartErr v => exact .one (.uart (.sameRate rfl rfl rfl))
  | wrUartCmd v => exact .next (uartCmdWrite_reaches v s)
  | rdSpiData => exact .next (readData_reaches .srx s (.spi (.flags _)))
  | wrSpiData v => exact .next (spiDataWrite_reaches v s)
  | wrSpiStatus v => exact .one (.spi (.flags _))
  | wrSpiCtrl v => exact .next (spiCtrlWrite_reaches v s)
  | wrSpiClksel v => exact .next (spiClkselWrite_reaches v s)
  | wrSpiSs v => exact .next (spiSsWrite_reaches v s)
  | wrSpiCmd v => exact .next (spiCmdWrite_reaches v s)
  | rdUartStatus | rdUartCtrl | rdUartFrame | rdUartBaud | rdUartDivl | rdUartDivh | rdUartRxcnt | rdUartTxcnt | rdUartErr
  | rdUartCmd | rdSpiStatus | rdSpiCtrl | rdSpiClksel | rdSpiSs | rdSpiRxcnt | rdSpiTxcnt | rdSpiCmd
  | rdReserved _ => exact .one (.hostRead _ s)
  | wrUartDivl _ | wrUartDivh _ | wrUartRxcnt _ | wrUartTxcnt _ | wrSpiRxcnt _ | wrSpiTxcnt _ | wrReserved _ _
  | cmdNone _ => exact .next .refl
  | pinSfpHardReset => exact .one (.sfp (.hardReset _))
  | pinDelaySettle => exact execPinDelaySettle_answers s
  | pinReserved _ | cmdReserved _ _ => exact .one (.refuse _ s)
  | rbPush q v => exact .next (.tail (.single (.pushRing q v s)) (.respond _ _))
  | rbPop q => exact .next (.tail (.single (.popRing q s)) (.respond _ _))
  | rbCount q => exact .one (.respond _ s)
  | rbClear q => exact .one (.clearRing q s)
  | frameCommonRead _ _ _ | frameCommonWrite _ _ _ | frameReservedBsb4 _ _ _ _ | frameReservedBsb8 _ _ _ _
  | frameReservedBsb12 _ _ _ _ | frameReservedBsb16 _ _ _ _ | frameReservedBsb20 _ _ _ _ | frameReservedBsb24 _ _ _ _
  | frameReservedBsb28 _ _ _ _ | frameSockRegRead _ _ _ _ | frameSockRegWrite _ _ _ _ | frameTxBufRead _ _ _ _
  | frameTxBufWrite _ _ _ _ | frameRxBufRead _ _ _ _ | frameRxBufWrite _ _ _ _ => exact .next (runFrame_reaches _ s)
  | cmdDiscon n => exact .next (.head (.aside rfl) (takeCommand_reaches n _ (drawChoice s).2))
  | cmdOpen n | cmdListen n | cmdConnect n | cmdClose n | cmdSend n | cmdSendMac n | cmdSendKeep n
  | cmdRecv n => exact .next (takeCommand_reaches n _ s)

theorem runAccess_answers (a : HostAccess) (s : State) : Answers (runAccess a s) s := by
  unfold runAccess
  split
  · exact .one (.refuse _ s)
  · exact exec_answers _ s

theorem runHost_answers (s : State) : Answers (runHost s) s := by
  unfold runHost
  split
  · exact .next .refl
  · next a rest _ =>
    obtain ⟨t, e, h⟩ := runAccess_answers a { s with hostq := rest }
    exact ⟨t, e, .head (.aside rfl) h⟩

theorem runPort_answers (a : Agent) (p : Port) (q : RingId) (op : BitVec 10) (s : State) :
    Answers (runPort a p q op s) s := by
  rcases runPort_cases a p q op s with ⟨_, _, e⟩ | ⟨_, e⟩ <;> rw [e]
  · exact exec_answers _ s
  · exact .next .refl

theorem runFrameBytes_answers (bytes : List Byte) (s : State) : Answers (runFrameBytes bytes s) s := by
  unfold runFrameBytes
  split
  · exact exec_answers _ s
  · exact .next (runFrame_reaches bytes s)

theorem runTake_answers (n : SockIx) (s : State) : Answers (runTake n s) s := by
  unfold runTake
  split
  · exact .next .refl
  · exact exec_answers _ s

/-- Every move answers a next state, by small updates. -/
theorem runMove_answers (m : Move) (s : State) : Answers (runMove m s) s := by
  cases m with
  | host => exact runHost_answers s
  | ring a p q op => exact runPort_answers a p q op s
  | frame bytes => exact runFrameBytes_answers bytes s
  | utxStart => exact .next (utxStart_reaches s)
  | utxFinish => exact .next (utxFinish_reaches s)
  | line d p s1 s2 => exact .next (lineFrame_reaches _ s)
  | spiDrain => exact .next (spiDrain_reaches s)
  | spiComplete => exact .next (spiComplete_reaches s)
  | sfpSettle => exact .next (sfpSettle_reaches s)
  | netTake n => exact runTake_answers n s
  | netStatus n sr => exact .next (netStatus_reaches n sr s)
  | netRx n i v => exact .next (netRx_reaches n i v s)
  | blockReset => exact .next (blockReset_reaches s)

/-- What a step can do: nothing, or small updates and then the SFP's look at its line (R52, R131). -/
theorem step_cases (s : State) : step s = .next s ∨ ∃ u, Reaches s u ∧ step s = .next (endStep u) := by
  cases hs : s.sched with
  | nil => exact .inl (step_idle hs)
  | cons m rest =>
    obtain ⟨u, e, h⟩ := runMove_answers m { s with sched := rest }
    exact .inr ⟨u, .head (.aside rfl) h, by rw [step_move hs, e]; rfl⟩

/-- A next state of a step is the state itself, or the SFP's look at its line after small updates. -/
theorem step_next_cases {s t : State} (h : step s = .next t) : t = s ∨ ∃ u, Reaches s u ∧ t = endStep u := by
  rcases step_cases s with e | ⟨u, hu, e⟩ <;> rw [e] at h
  · exact .inl (Host.Outcome.next.inj h).symm
  · exact .inr ⟨u, hu, (Host.Outcome.next.inj h).symm⟩

/-- What each small update keeps, every step keeps. -/
theorem step_keeps {P : State → Prop} (hP : ∀ s t, Effect s t → P s → P t) {s t : State} (hs : P s)
    (h : step s = .next t) : P t := by
  rcases step_next_cases h with rfl | ⟨u, hu, rfl⟩
  · exact hs
  · exact Reaches.keeps hP (hu.tail (.endStep u)) hs

end Sys2Proof.Proofs
end

section
/-!
PROOFS. The four invariants: each small update keeps them, so every step does; and the launch has them.
-/

namespace Sys2Proof.Proofs

open Sys2Proof.Machine Sys2Proof.Machine.Laws

/-! ### Rings (R17, R18) -/

theorem RingOp.keeps_ok {r r' : Ring} {cap : Nat} (op : RingOp r r') (h : r.Ok cap) : r'.Ok cap := by
  cases op with
  | push v => exact ok_push h v
  | pop => exact ok_pop h
  | clear => exact ok_clear h

theorem Effect.keeps_rings (s t : State) (e : Effect s t) (h : RingsOk s) : RingsOk t := by
  obtain ⟨urx, utx, srx, stx⟩ := h
  cases e with
  | aside e => rw [e]; exact ⟨urx, utx, srx, stx⟩
  | ring q op =>
    cases q with
    | urx => exact ⟨op.keeps_ok urx, utx, srx, stx⟩
    | utx => exact ⟨urx, op.keeps_ok utx, srx, stx⟩
    | srx => exact ⟨urx, utx, op.keeps_ok srx, stx⟩
    | stx => exact ⟨urx, utx, srx, op.keeps_ok stx⟩
  | uart op => exact ⟨urx, utx, srx, stx⟩
  | spi op => exact ⟨urx, utx, srx, stx⟩
  | sfp op => exact ⟨urx, utx, srx, stx⟩

/-! ### The divisor register (R22, R81) -/

/-- A valid divisor fits the register (R81). -/
theorem divBits_toNat {d : Int} (h : divisorValid d = true) : ((divBits d).toNat : Int) = d := by
  simp only [divisorValid, decide_eq_true_eq] at h
  rw [divBits, BitVec.toNat_ofInt]
  omega

/-- What a register of 16 bits equals is a valid divisor. -/
theorem divisorValid_of_toNat {w : Word16} {d : Int} (h : (w.toNat : Int) = d) : divisorValid d = true := by
  have := w.isLt
  simp only [divisorValid, decide_eq_true_eq]
  omega

/-- The bounds on F_CLK make the reset divisor valid (R6, R81). -/
theorem divisorValid_reset {c : Config} (h : c.wf = true) : divisorValid (divisor c.fClk (baudTab 2) false) = true := by
  have clk : 153600 ≤ c.fClk ∧ c.fClk < 153600 * 65537 := by
    simp only [Config.wf, Bool.and_eq_true, decide_eq_true_eq] at h
    tauto
  have tab : baudTab 2 = 9600 := rfl
  simp only [divisorValid, divisor, oversampling, tab, decide_eq_true_eq]
  simp only [Bool.false_eq_true, if_false]
  omega

/-- The register holds the divisor of the baud code and U2X. -/
def RateOk (c : Config) (u : Uart) : Prop := (u.div.toNat : Int) = divisor c.fClk (baudTab u.baud) u.ctrl.u2x

theorem divisorOk_iff (s : State) : DivisorOk s ↔ s.cfg.wf = true ∧ RateOk s.cfg s.uart :=
  ⟨fun h => ⟨h.cfg_wf, h.div_eq⟩, fun h => ⟨h.1, h.2⟩⟩

theorem uartReset_rateOk {c : Config} (h : c.wf = true) : RateOk c (uartReset c) := divBits_toNat (divisorValid_reset h)

theorem UartOp.keeps_rate {c : Config} {u u' : Uart} (op : UartOp c u u') (wf : c.wf = true) (h : RateOk c u) :
    RateOk c u' := by
  cases op with
  | sameRate baud u2x div => rw [RateOk, baud, u2x, div]; exact h
  | newRate valid div =>
    rw [RateOk, div]
    apply divBits_toNat
    rcases valid with ⟨baud, u2x⟩ | valid
    · rw [baud, u2x]; exact divisorValid_of_toNat h
    · exact valid
  | reset => exact uartReset_rateOk wf

theorem Effect.keeps_divisor (s t : State) (e : Effect s t) (h : DivisorOk s) : DivisorOk t := by
  rw [divisorOk_iff] at h ⊢
  obtain ⟨wf, rate⟩ := h
  cases e with
  | aside e => rw [e]; exact ⟨wf, rate⟩
  | ring q op => cases q <;> exact ⟨wf, rate⟩
  | uart op => exact ⟨wf, op.keeps_rate wf rate⟩
  | spi op => exact ⟨wf, rate⟩
  | sfp op => exact ⟨wf, rate⟩

/-! ### The SPI master's sequencing (R29, R118, R122, R127) -/

/-- The sequencing as a property of the master's registers. -/
structure Sequenced (c : Config) (p : Spi) : Prop where
  lines : 0 < c.nSs
  busy_enabled : p.busy = true → p.ctrl.spe = true
  auto_eq : p.auto = p.busy
  drain_buffered : p.drain = .active → p.ctrl.buf = true
  ssidx_lt : p.ssidx.toNat < c.nSs

theorem spiOk_iff (s : State) : SpiOk s ↔ Sequenced s.cfg s.spi :=
  ⟨fun ⟨a, b, c, d, e⟩ => ⟨a, b, c, d, e⟩, fun ⟨a, b, c, d, e⟩ => ⟨a, b, c, d, e⟩⟩

theorem busy_eq_false_iff (p : Spi) : p.busy = false ↔ p.sh = .idle ∧ p.drain = .idle := by
  cases h : p.drain <;> simp [Spi.busy, h]

theorem busy_of_drain {p : Spi} (h : p.drain = .active) : p.busy = true := by simp [Spi.busy, h]

theorem spiReset_sequenced {c : Config} (lines : 0 < c.nSs) : Sequenced c spiReset :=
  ⟨lines, by decide, by decide, by decide, lines⟩

theorem SpiOp.keeps_sequenced {c : Config} {p p' : Spi} (op : SpiOp c p p') (h : Sequenced c p) :
    Sequenced c p' := by
  obtain ⟨lines, enabled, auto_eq, buffered, ssidx⟩ := h
  cases op with
  | flags f => exact ⟨lines, enabled, auto_eq, buffered, ssidx⟩
  | clksel k => exact ⟨lines, enabled, auto_eq, buffered, ssidx⟩
  | spie b => exact ⟨lines, enabled, auto_eq, buffered, ssidx⟩
  | configure k off off' =>
    have rest : p.busy = false := by
      by_contra busy
      simp [enabled (by simpa using busy)] at off
    have drain := ((busy_eq_false_iff p).1 rest).2
    exact ⟨lines, fun busy => absurd (rest.symm.trans busy) (by decide), auto_eq, by simp [drain], ssidx⟩
  | enable b rest => exact ⟨lines, fun busy => absurd (rest.symm.trans busy) (by decide), auto_eq, buffered, ssidx⟩
  | select hold i rest line => exact ⟨lines, enabled, auto_eq, buffered, line⟩
  | load v on => exact ⟨lines, fun _ => on.elim id fun drain => enabled (busy_of_drain drain), rfl, buffered, ssidx⟩
  | go on buf => exact ⟨lines, fun _ => on, by simp [Spi.busy], fun _ => buf, ssidx⟩
  | drained idle =>
    have rest : Spi.busy { p with drain := .idle, auto := false } = false := (busy_eq_false_iff _).2 ⟨idle, rfl⟩
    exact ⟨lines, by simp [rest], rest.symm, by simp, ssidx⟩
  | byteDone =>
    cases drain : p.drain with
    | idle =>
      have rest : p.byteDone.busy = false := (busy_eq_false_iff _).2 ⟨rfl, drain⟩
      exact ⟨lines, by simp [rest], by rw [rest]; simp [Spi.byteDone, drain], buffered, ssidx⟩
    | active =>
      have busy : p.busy = true := busy_of_drain drain
      have busy' : p.byteDone.busy = true := busy_of_drain drain
      exact ⟨lines, fun _ => enabled busy, by rw [busy']; simp [Spi.byteDone, drain, auto_eq, busy], buffered, ssidx⟩
  | reset => exact spiReset_sequenced lines

theorem Effect.keeps_spi (s t : State) (e : Effect s t) (h : SpiOk s) : SpiOk t := by
  rw [spiOk_iff] at h ⊢
  cases e with
  | aside e => rw [e]; exact h
  | ring q op => cases q <;> exact h
  | uart op => exact h
  | spi op => exact op.keeps_sequenced h
  | sfp op => exact h

/-! ### The SFP (R34 to R36, R131 to R151) -/

theorem socketReset_ok : socketReset.Ok :=
  ⟨by decide, by decide, .inl rfl, memory_within_nil _, memory_within_nil _⟩

theorem SockOp.keeps_ok {k k' : Socket} (op : SockOp k k') (h : k.Ok) : k'.Ok := by
  obtain ⟨rxsz, txsz, crpend, txbuf, rxbuf⟩ := h
  cases op with
  | registers mr sr p0 p1 => exact ⟨rxsz, txsz, crpend, txbuf, rxbuf⟩
  | command c known => exact ⟨rxsz, txsz, .inr known, txbuf, rxbuf⟩
  | taken sr => exact ⟨rxsz, txsz, .inl rfl, txbuf, rxbuf⟩
  | rxsz v legal => exact ⟨legal, txsz, crpend, txbuf, memory_within_nil v⟩
  | txsz v legal => exact ⟨rxsz, legal, crpend, memory_within_nil v, rxbuf⟩
  | txCell i v within => exact ⟨rxsz, txsz, crpend, memory_within_write i v txbuf within, rxbuf⟩
  | rxCell i v within => exact ⟨rxsz, txsz, crpend, txbuf, memory_within_write i v rxbuf within⟩

/-- The SFP's invariant without the level of the line, which only the end of a step brings up to date (R131). -/
structure ParserOk (x : Sfp) : Prop where
  open_asserted : x.phase ≠ .idle → x.csPrev = true
  data_bsb : x.phase = .data → reservedBsb (ctlBsb x.ctl) = false
  data_left : x.phase = .data → ∀ k, (decodeOm x.ctl).len = some k → x.n < k
  rst_settling : x.regs.mr.getLsbD 7 = true → x.resetting = true
  socks : ∀ n, (x.regs.socks.get n).Ok

theorem sfpOk_iff (s : State) : SfpOk s ↔ s.sfp.csPrev = cs s s.cfg.sfpSs ∧ ParserOk s.sfp :=
  ⟨fun ⟨a, b, c, d, e, f⟩ => ⟨a, b, c, d, e, f⟩, fun ⟨a, b, c, d, e, f⟩ => ⟨a, b, c, d, e, f⟩⟩

theorem sfpRegsReset_socks_ok (n : SockIx) : (sfpRegsReset.socks.get n).Ok := by
  have h : sfpRegsReset.socks.get n = socketReset := by simp [sfpRegsReset, Vector.get]
  rw [h]
  exact socketReset_ok

/-- What an edge does: an assertion opens a frame's header, a release closes the frame, and an unchanged level changes
nothing (R131). -/
theorem edge_cases (x : Sfp) (c : Bool) :
    (c = true ∧ (x.edge c).phase = .addrHi) ∨ (c = false ∧ (x.edge c).phase = .idle) ∨ x.edge c = x := by
  unfold Sfp.edge
  split
  · next up => exact .inl ⟨by simp_all, rfl⟩
  · split
    · next down => exact .inr (.inl ⟨by simp_all, rfl⟩)
    · next up down =>
      have same : x.csPrev = c := by cases c <;> simp_all
      exact .inr (.inr (by rw [← same]))

theorem ParserOk.edge {x : Sfp} (h : ParserOk x) (c : Bool) : ParserOk (x.edge c) := by
  have rst : (x.edge c).regs.mr.getLsbD 7 = true → (x.edge c).resetting = true := by simpa using h.rst_settling
  have socks : ∀ n, ((x.edge c).regs.socks.get n).Ok := by simpa using h.socks
  rcases edge_cases x c with ⟨hc, phase⟩ | ⟨_, phase⟩ | same
  · exact ⟨by simp [hc], by simp [phase], by simp [phase], rst, socks⟩
  · exact ⟨by simp [phase], by simp [phase], by simp [phase], rst, socks⟩
  · rw [same]; exact h

/-- A data slot's end: a frame of fixed length with its last byte done goes back to its header, and any other has a byte
left (R137). -/
theorem ParserOk.advance {x : Sfp} (h : ParserOk x) (data : x.phase = .data) : ParserOk x.advance := by
  obtain ⟨asserted, bsb, left, rst, socks⟩ := h
  have asserted' := asserted (by simp [data])
  unfold Sfp.advance
  split
  · exact ⟨fun _ => asserted', by simp, by simp, rst, socks⟩
  · next more =>
    refine ⟨fun _ => asserted', bsb, fun _ k hk => ?_, rst, socks⟩
    have before : x.n < k := left data k hk
    have notLast : k ≠ x.n + 1 := fun e => more (hk.trans (congrArg some e))
    simp only
    omega

/-- A frame of fixed length has a byte to come at its start (R64). -/
theorem len_pos {om : OpMode} {k : Nat} (h : om.len = some k) : 0 < k := by
  cases om <;> simp [OpMode.len] at h <;> omega

theorem SfpOp.keeps_ok {x x' : Sfp} (op : SfpOp x x') (h : ParserOk x) : ParserOk x' := by
  cases op with
  | edge c => exact h.edge c
  | advance data => exact h.advance data
  | address a p header header' =>
    exact ⟨fun _ => h.open_asserted header, fun e => absurd e header', fun e => absurd e header', h.rst_settling, h.socks⟩
  | control b header known =>
    exact ⟨fun _ => h.open_asserted header, fun _ => known, fun _ _ => len_pos, h.rst_settling, h.socks⟩
  | reserved b => exact ⟨by simp, by simp, by simp, h.rst_settling, h.socks⟩
  | regs r rst socks =>
    exact ⟨h.open_asserted, h.data_bsb, h.data_left, fun e => h.rst_settling (rst ▸ e), fun n => socks ▸ h.socks n⟩
  | softReset => exact ⟨h.open_asserted, h.data_bsb, h.data_left, fun _ => rfl, sfpRegsReset_socks_ok⟩
  | hardReset c => exact ⟨by simp, by simp, by simp, fun _ => rfl, sfpRegsReset_socks_ok⟩
  | settle => exact ⟨h.open_asserted, h.data_bsb, h.data_left, by simp, h.socks⟩
  | sock n k op =>
    refine ⟨h.open_asserted, h.data_bsb, h.data_left, h.rst_settling, fun m => ?_⟩
    by_cases e : m = n
    · subst e; simpa [Vector.get_eq_getElem] using op.keeps_ok (h.socks m)
    · have other : (n : Nat) ≠ m := fun e' => e (Fin.ext e'.symm)
      simpa [Vector.get_eq_getElem, other] using h.socks m

theorem Effect.keeps_parser (s t : State) (e : Effect s t) (h : ParserOk s.sfp) : ParserOk t.sfp := by
  cases e with
  | aside e => rw [e]; exact h
  | ring q op => cases q <;> exact h
  | uart op => exact h
  | spi op => exact h
  | sfp op => exact op.keeps_ok h

/-- The end of a step brings CSPREV to the level of the line (R131). -/
theorem endStep_csPrev (s : State) : (endStep s).sfp.csPrev = cs (endStep s) (endStep s).cfg.sfpSs :=
  (edge_csPrev s.sfp _).trans (cs_congr (t := endStep s) (s := s) rfl _).symm

/-! ### The statements -/

/-- Settles O8: each small update of a step keeps the rings. -/
theorem stepKeepsRings : Obligations.StepKeepsRings := fun _ _ => step_keeps Effect.keeps_rings

/-- Settles O9: each small update of a step keeps the divisor. -/
theorem stepKeepsDivisor : Obligations.StepKeepsDivisor := fun _ _ => step_keeps Effect.keeps_divisor

/-- Settles O10: each small update of a step keeps the sequencing. -/
theorem stepKeepsSpiSequencing : Obligations.StepKeepsSpiSequencing := fun _ _ => step_keeps Effect.keeps_spi

/-- Settles O11: each small update of a step keeps the SFP's invariant but for CSPREV, and the end of the step brings CSPREV to
the level of the line. -/
theorem stepKeepsSfp : Obligations.StepKeepsSfp := by
  intro s t h hstep
  rcases step_next_cases hstep with rfl | ⟨u, reached, rfl⟩
  · exact h
  · have parser := Reaches.keeps Effect.keeps_parser (reached.tail (.endStep u)) ((sfpOk_iff s).1 h).2
    exact (sfpOk_iff _).2 ⟨endStep_csPrev u, parser⟩

/-- The capacities and the lines of legal parameters (R6, R80). -/
theorem wf_bounds {c : Config} (h : c.wf = true) : c.capsLegal = true ∧ 0 < c.capUrx ∧ 0 < c.capUtx ∧ 0 < c.capSrx ∧
    0 < c.capStx ∧ 0 < c.nSs := by
  simp only [Config.wf, Bool.and_eq_true, decide_eq_true_eq] at h
  obtain ⟨⟨⟨⟨⟨caps, -⟩, lines⟩, -⟩, -⟩, -⟩ := h
  refine ⟨caps, ?_⟩
  simp only [Config.capsLegal, Bool.and_eq_true, List.all_cons, List.all_nil, decide_eq_true_eq] at caps
  omega

theorem sfpLaunch_ok : ParserOk sfpLaunch :=
  ⟨by decide, by decide, fun e => absurd e (by decide), by decide, sfpRegsReset_socks_ok⟩

/-- The launch with legal parameters has the four invariants and empty records (R38). -/
theorem launch_invariants {c : Config} (h : c.wf = true) :
    RingsOk (.launch c) ∧ DivisorOk (.launch c) ∧ SpiOk (.launch c) ∧ SfpOk (.launch c) ∧
      (State.launch c).clean = true := by
  obtain ⟨caps, urx, utx, srx, stx, lines⟩ := wf_bounds h
  refine ⟨⟨ok_fresh urx, ok_fresh utx, ok_fresh srx, ok_fresh stx⟩, (divisorOk_iff _).2 ⟨h, uartReset_rateOk h⟩,
    (spiOk_iff _).2 (spiReset_sequenced lines), (sfpOk_iff _).2 ⟨rfl, sfpLaunch_ok⟩, ?_⟩
  simp [State.clean, State.launch, caps]

/-- Settles O12: `State.reset` is the launch with the parameters of the test vectors, which are legal. -/
theorem launchHasTheInvariants : Obligations.LaunchHasTheInvariants := by
  obtain ⟨rings, divisor, spi, sfp, -⟩ := launch_invariants (c := Config.vectors) (by decide)
  exact ⟨fun _ => launch_invariants, rings, divisor, spi, sfp⟩

end Sys2Proof.Proofs
end

section
/-!
PROOFS. The decoder answers well-formed instructions (R48, R59, R65, R165), one lemma per part of the decoder.
-/

namespace Sys2Proof.Proofs

theorem usedOffset_iff (off : Byte) :
    usedOffset off = true ↔ off.toNat ≤ 0x0A ∨ 0x10 ≤ off.toNat ∧ off.toNat ≤ 0x17 := by
  simp only [usedOffset, Bool.or_eq_true, Bool.and_eq_true, decide_eq_true_eq]

/-- The row of reserved offsets is the last: it takes an offset that is no register's (R48, R60). -/
theorem decodeRead_wf (off : Byte) : (decodeRead off).wf = true := by
  unfold decodeRead
  split
  case h_20 =>
    simp only [Instr.wf, Bool.not_eq_true', Bool.eq_false_iff, ne_eq, usedOffset_iff, imp_false] at *
    omega
  all_goals rfl

theorem decodeWrite_wf (off v : Byte) : (decodeWrite off v).wf = true := by
  unfold decodeWrite
  split
  case h_20 =>
    simp only [Instr.wf, Bool.not_eq_true', Bool.eq_false_iff, ne_eq, usedOffset_iff, imp_false] at *
    omega
  all_goals rfl

/-- A reserved pin request is neither of the two operations (R59). -/
theorem decodePin_wf (w : BitVec 17) : (decodePin w).wf = true := by
  unfold decodePin
  split
  · rfl
  · rfl
  · next not_reset not_settle =>
    have ne_zero : w ≠ 0 := fun e => not_reset (by rw [e]; rfl)
    have ne_one : w ≠ 1 := fun e => not_settle (by rw [e]; rfl)
    exact decide_eq_true ⟨ne_zero, ne_one⟩

theorem decodeHreq_wf (w : BitVec 18) : (decodeHreq w).wf = true := by
  unfold decodeHreq
  split
  · exact decodePin_wf _
  · split
    · exact decodeWrite_wf _ _
    · exact decodeRead_wf _

theorem decodeRbop_wf (q : RingId) (w : BitVec 10) : (decodeRbop q w).wf = true := by
  unfold decodeRbop
  split <;> rfl

/-- A reserved block select has no limit of its own: its data bytes are ignored (R134). -/
theorem decodeReserved_wf (n : SockIx) (off : Word16) (rwb : Bool) (om : OpMode) (data : List Byte) :
    (decodeReserved n off rwb om data).wf = true := by
  unfold decodeReserved
  split <;> rfl

/-- A block's frame is well-formed where its mode admits its number of data bytes (R137). -/
theorem decodeBlock_wf (b : Bsb) (off : Word16) (rwb : Bool) (om : OpMode) (data : List Byte) :
    (decodeBlock b off rwb om data).wf = om.admits data.length := by
  unfold decodeBlock
  split <;> rfl

theorem decodeFields_wf {off : Word16} {ctl : Byte} {data : List Byte} {i : Instr}
    (h : decodeFields off ctl data = .ok i) : i.wf = true := by
  unfold decodeFields at h
  split at h
  · cases h
    exact decodeReserved_wf _ _ _ _ _
  · split at h
    · next admitted =>
      cases h
      exact (decodeBlock_wf _ _ _ _ _).trans admitted
    · cases h

theorem decodeFrame_wf {bytes : List Byte} {i : Instr} (h : decodeFrame bytes = .ok i) : i.wf = true := by
  unfold decodeFrame at h
  split at h
  · exact decodeFields_wf h
  · cases h

/-- A reserved command is none of the ten codes of R66's table (R165). -/
theorem decodeSncmd_wf (n : SockIx) (c : Byte) : (decodeSncmd n c).wf = true := by
  unfold decodeSncmd
  split
  case h_11 =>
    have ne_of_toNat {k : Byte} (ne : c.toNat = k.toNat → False) : c ≠ k := fun e => ne (by rw [e])
    simp only [Instr.wf, commandCodes, List.contains_eq_mem, List.mem_cons, List.not_mem_nil, or_false, Bool.and_eq_true,
      Bool.not_eq_true', decide_eq_true_eq, decide_eq_false_iff_not, not_or]
    refine ⟨ne_of_toNat ?_, ne_of_toNat ?_, ne_of_toNat ?_, ne_of_toNat ?_, ne_of_toNat ?_, ne_of_toNat ?_, ne_of_toNat ?_,
      ne_of_toNat ?_, ne_of_toNat ?_, ne_of_toNat ?_⟩ <;> assumption
  all_goals rfl

/-- Settles O2, by the format of the request. -/
theorem decodedInstructionsAreWellFormed : Obligations.DecodedInstructionsAreWellFormed := by
  intro r i h
  cases r with
  | hreq w => cases h; exact decodeHreq_wf w
  | rbop q w => cases h; exact decodeRbop_wf q w
  | frame bytes => exact decodeFrame_wf h
  | sncmd n c => cases h; exact decodeSncmd_wf n c

end Sys2Proof.Proofs
end

section
/-!
PROOFS. Which request a step runs (R51, R71, R155), and the requests that are refused (R45, R59).
-/

namespace Sys2Proof.Proofs

open Sys2Proof.Machine Sys2Proof.Machine.Laws

/-! ### The request of a step -/

/-- A pin operation is run whatever its width, and an access of the register window where it is 8 bits wide (R45). -/
theorem runAccess_accepted {a : HostAccess} (h : a.req.getLsbD 17 = true ∨ a.width = 8) (s : State) :
    runAccess a s = exec (decodeHreq a.req) s := by
  refine if_neg fun ⟨access, wide⟩ => ?_
  rcases h with pin | width
  · exact absurd (pin.symm.trans access) (by decide)
  · exact wide width

theorem runAccess_refused {a : HostAccess} (access : a.req.getLsbD 17 = false) (wide : a.width ≠ 8) (s : State) :
    runAccess a s = .next (refuse .hostWidth s) := if_pos ⟨access, wide⟩

theorem step_host {s : State} {rest : List Move} {a : HostAccess} {q : List HostAccess} (h : s.sched = .host :: rest)
    (queued : s.hostq = a :: q) : step s = finish (runAccess a { s with hostq := q, sched := rest }) := by
  simp [step_move h, runMove, runHost, queued]

theorem runFrameBytes_ok {bytes : List Byte} {i : Instr} (h : decodeFrame bytes = .ok i) (s : State) :
    runFrameBytes bytes s = exec i s := by simp [runFrameBytes, h]

theorem runTake_settled {s : State} (n : SockIx) (settled : s.sfp.resetting = false) :
    runTake n s = exec (decodeSncmd n (s.sock n).crpend) s := by simp [runTake, settled]

/-- The ports that issue an operation, by its code: COUNT at any, PUSH at the producer's, POP at the consumer's, CLEAR at
the control port (R71). -/
theorem portIssues_iff (p : Port) (op : BitVec 10) :
    portIssues p op = true ↔ op.extractLsb' 8 2 = 2 ∨ (op.extractLsb' 8 2 = 0 ∧ p = .producer) ∨
      (op.extractLsb' 8 2 = 1 ∧ p = .consumer) ∨ (op.extractLsb' 8 2 = 3 ∧ p = .control) := by
  unfold portIssues
  generalize op.extractLsb' 8 2 = k
  cases p <;> revert k <;> decide

/-- An RBOP's move: it runs under the port's agent where the port issues it, and else only the move is consumed (R71). -/
theorem step_ring {s : State} {rest : List Move} {a agent : Agent} {p : Port} {q : RingId} {op : BitVec 10} {issues : Prop}
    (h : s.sched = .ring a p q op :: rest) (driver : agent = portAgent q p) (allowed : portIssues p op = true ↔ issues) :
    (a = agent → issues → step s = finish (exec (decodeRbop q op) { s with sched := rest })) ∧
    (¬(a = agent ∧ issues) → step s = finish (.next { s with sched := rest })) := by
  subst driver
  rw [step_move h]
  rcases runPort_cases a p q op { s with sched := rest } with ⟨mine, issued, e⟩ | ⟨no, e⟩
  · exact ⟨fun _ _ => congrArg finish e, fun h => absurd ⟨mine.symm, allowed.1 issued⟩ h⟩
  · exact ⟨fun mine issued => absurd ⟨mine.symm, allowed.2 issued⟩ no, fun _ => congrArg finish e⟩

/-- Settles O5: a step is its first move and the SFP's look at its line (`step_move`), and each of the four moves runs its
request. -/
theorem stepRunsTheDecodedRequest : Obligations.StepRunsTheDecodedRequest := by
  intro s rest
  refine ⟨fun a q sched hostq accepted => ?_, fun a p q op sched => ?_, fun bytes i sched decoded => ?_,
    fun n sched settled => ?_⟩
  · rw [step_host sched hostq, runAccess_accepted accepted]
  · exact step_ring sched (by cases p <;> cases q <;> rfl) (portIssues_iff p op)
  · rw [step_move sched]
    exact congrArg finish (runFrameBytes_ok decoded _)
  · rw [step_move sched]
    exact congrArg finish (runTake_settled n settled)

/-! ### Refused requests -/

/-- A refusal joins the record and changes nothing else (R13, R37). -/
theorem refuse_answers_record (r : Refusal) (s : State) :
    ∃ t, (.next (refuse r s) : Result) = .next t ∧ t = { s with refusals := t.refusals } ∧
      ∀ x, x ∈ t.refusals ↔ x = r ∨ x ∈ s.refusals :=
  ⟨_, rfl, refuse_eq r s, fun x => mem_refuse_iff r x s⟩

/-- Settles O7: both requests are answered by a refusal alone. -/
theorem refusedHostRequestsChangeNothing : Obligations.RefusedHostRequestsChangeNothing := by
  refine ⟨fun a s access wide => ?_, fun _ s => refuse_answers_record .hostPinop s⟩
  rw [runAccess_refused access wide]
  exact refuse_answers_record .hostWidth s

end Sys2Proof.Proofs
end

section
/-!
PROOFS. The engines' side of the rings (R54): each engine's step pushes into a receive ring, or pops a transmit ring, or
leaves the rings alone.
-/

namespace Sys2Proof.Proofs

open Sys2Proof.Machine Sys2Proof.Machine.Laws

/-! ### The order of the counts -/

/-- From `s` to `t` no receive ring has lost a byte and no transmit ring has gained one (R54). -/
structure FillsAndDrains (s t : State) : Prop where
  urx : s.urx.count ≤ t.urx.count
  srx : s.srx.count ≤ t.srx.count
  utx : t.utx.count ≤ s.utx.count
  stx : t.stx.count ≤ s.stx.count

/-- An update that leaves the four rings. -/
theorem FillsAndDrains.of_rings {s t : State} (urx : t.urx = s.urx) (srx : t.srx = s.srx) (utx : t.utx = s.utx)
    (stx : t.stx = s.stx) : FillsAndDrains s t :=
  ⟨by rw [urx], by rw [srx], by rw [utx], by rw [stx]⟩

theorem FillsAndDrains.refl (s : State) : FillsAndDrains s s := .of_rings rfl rfl rfl rfl

theorem FillsAndDrains.trans {s t u : State} (h : FillsAndDrains s t) (k : FillsAndDrains t u) : FillsAndDrains s u :=
  ⟨h.urx.trans k.urx, h.srx.trans k.srx, k.utx.trans h.utx, k.stx.trans h.stx⟩

/-- What reaches the SFP, the records and the draws alone leaves the rings. -/
theorem FillsAndDrains.of_sfpOnly {s t : State} (h : SfpOnly s t) : FillsAndDrains s t := by
  rw [h.1]
  exact .of_rings rfl rfl rfl rfl

theorem FillsAndDrains.onUart (f : Uart → Uart) (s : State) : FillsAndDrains s (s.onUart f) := .of_rings rfl rfl rfl rfl

theorem FillsAndDrains.onSpi (f : Spi → Spi) (s : State) : FillsAndDrains s (s.onSpi f) := .of_rings rfl rfl rfl rfl

theorem FillsAndDrains.emit (e : LineEvent) (s : State) : FillsAndDrains s (emit e s) := .of_rings rfl rfl rfl rfl

theorem count_le_push (r : Ring) (v : Byte) : r.count ≤ (r.push v).2.count := by
  by_cases full : r.count = r.cap
  · rw [push_full r v full]
  · rw [push_room r v full]
    exact Nat.le_succ _

theorem pop_count_le (r : Ring) : r.pop.2.count ≤ r.count := by
  by_cases empty : r.count = 0
  · rw [pop_empty r empty]
  · rw [pop_some r empty]
    exact Nat.sub_le _ _

theorem FillsAndDrains.pushUrx (v : Byte) (s : State) : FillsAndDrains s (pushRing .urx v s) :=
  ⟨count_le_push s.urx v, le_rfl, le_rfl, le_rfl⟩

theorem FillsAndDrains.pushSrx (v : Byte) (s : State) : FillsAndDrains s (pushRing .srx v s) :=
  ⟨le_rfl, count_le_push s.srx v, le_rfl, le_rfl⟩

theorem FillsAndDrains.popUtx (s : State) : FillsAndDrains s (popRing .utx s) :=
  ⟨le_rfl, le_rfl, pop_count_le s.utx, le_rfl⟩

theorem FillsAndDrains.popStx (s : State) : FillsAndDrains s (popRing .stx s) :=
  ⟨le_rfl, le_rfl, le_rfl, pop_count_le s.stx⟩

/-! ### The engines -/

theorem receive_fillsAndDrains (f : RxFrame) (s : State) : FillsAndDrains s (receive f s) := by
  unfold receive
  split
  · exact (FillsAndDrains.onUart _ s).trans (.pushUrx _ _)
  · exact .refl s

theorem lineFrame_fillsAndDrains (f : RxFrame) (s : State) : FillsAndDrains s (lineFrame f s) := by
  unfold lineFrame
  split
  · exact .refl s
  · exact receive_fillsAndDrains f s

theorem utxStart_fillsAndDrains (s : State) : FillsAndDrains s (utxStart s) := by
  unfold utxStart
  split
  · split
    · exact (FillsAndDrains.popUtx s).trans (.onUart _ _)
    · exact .refl s
  · exact .refl s

theorem utxFinish_fillsAndDrains (s : State) : FillsAndDrains s (utxFinish s) := by
  unfold utxFinish
  split
  · exact .refl s
  · refine .trans ?_ (.onUart _ _)
    split
    · exact (FillsAndDrains.emit _ s).trans (receive_fillsAndDrains _ _)
    · exact .emit _ s

theorem spiLoad_fillsAndDrains (v : Byte) (s : State) : FillsAndDrains s (spiLoad v s) := by
  rcases spiLoad_cases v s with ⟨_, e⟩ | ⟨_, e⟩ <;> rw [e] <;> exact .onSpi _ s

theorem spiDrain_fillsAndDrains (s : State) : FillsAndDrains s (spiDrain s) := by
  unfold spiDrain
  split
  · split
    · exact (FillsAndDrains.popStx s).trans (spiLoad_fillsAndDrains _ _)
    · exact .onSpi _ s
  · exact .refl s

/-- The slave's answer reaches the SFP, the records and the draws alone (R129). -/
theorem sfpOnly_spiExchange (b : Byte) (s : State) : SfpOnly s (spiExchange b s).2 := by
  unfold spiExchange
  split
  · exact sfpOnly_sfpSlot b s
  · exact .draw s

theorem spiComplete_fillsAndDrains (s : State) : FillsAndDrains s (spiComplete s) := by
  unfold spiComplete
  split
  · exact .refl s
  · next b _ =>
    exact (((FillsAndDrains.of_sfpOnly (sfpOnly_spiExchange b s)).trans (.emit _ _)).trans (.onSpi _ _)).trans
      (.pushSrx _ _)

theorem sfpOnly_sfpSettle (s : State) : SfpOnly s (sfpSettle s) := by
  unfold sfpSettle
  split
  · exact .onSfp s _
  · exact .refl s

theorem sfpOnly_netStatus (n : SockIx) (sr : SockStatus) (s : State) : SfpOnly s (netStatus n sr s) := by
  unfold netStatus
  split
  · exact .onSock s n _
  · exact .refl s

theorem sfpOnly_netRx (n : SockIx) (i : Nat) (v : Byte) (s : State) : SfpOnly s (netRx n i v s) := by
  unfold netRx
  split
  · exact .onSock s n _
  · exact .refl s

/-! ### Socket commands -/

/-- Whatever byte is taken as a command, its meaning reaches the SFP, the records and the draws alone (R150, R155, R165). -/
theorem sfpOnly_exec_decodeSncmd (n : SockIx) (c : Byte) (s : State) :
    ∃ t, exec (decodeSncmd n c) s = .next t ∧ SfpOnly s t := by
  unfold decodeSncmd
  split
  case h_1 => exact ⟨_, rfl, .refl s⟩
  case h_5 => exact ⟨_, rfl, (SfpOnly.drawChoice s).trans (sfpOnly_takeCommand n _ _)⟩
  case h_11 => exact ⟨_, rfl, .refuse _ s⟩
  all_goals exact ⟨_, rfl, sfpOnly_takeCommand n _ s⟩

theorem sfpOnly_runTake (n : SockIx) (s : State) : ∃ t, runTake n s = .next t ∧ SfpOnly s t := by
  unfold runTake
  split
  · exact ⟨_, rfl, .refl s⟩
  · exact sfpOnly_exec_decodeSncmd n _ s

/-! ### The moves -/

/-- A move of the whole block that is neither HOST's nor the block reset fills receive rings and drains transmit rings
(R54). -/
theorem runMove_fillsAndDrains {m : Move} (block : blockMove m = true) (not_host : m ≠ .host) (not_reset : m ≠ .blockReset)
    (s : State) : ∃ t, runMove m s = .next t ∧ FillsAndDrains s t := by
  cases m with
  | host => exact absurd rfl not_host
  | blockReset => exact absurd rfl not_reset
  | ring a p q op => cases block
  | frame bytes => cases block
  | utxStart => exact ⟨_, rfl, utxStart_fillsAndDrains s⟩
  | utxFinish => exact ⟨_, rfl, utxFinish_fillsAndDrains s⟩
  | line d p s1 s2 => exact ⟨_, rfl, lineFrame_fillsAndDrains _ s⟩
  | spiDrain => exact ⟨_, rfl, spiDrain_fillsAndDrains s⟩
  | spiComplete => exact ⟨_, rfl, spiComplete_fillsAndDrains s⟩
  | sfpSettle => exact ⟨_, rfl, .of_sfpOnly (sfpOnly_sfpSettle s)⟩
  | netTake n =>
    obtain ⟨t, e, reached⟩ := sfpOnly_runTake n s
    exact ⟨t, e, .of_sfpOnly reached⟩
  | netStatus n sr => exact ⟨_, rfl, .of_sfpOnly (sfpOnly_netStatus n sr s)⟩
  | netRx n i v => exact ⟨_, rfl, .of_sfpOnly (sfpOnly_netRx n i v s)⟩

/-- Settles O17: the move fills and drains, and the SFP's look at its line leaves the rings. -/
theorem enginesFillReceiveAndDrainTransmit : Obligations.EnginesFillReceiveAndDrainTransmit := by
  intro m s t rest block not_host not_reset sched stepped
  obtain ⟨u, moved, counts⟩ := runMove_fillsAndDrains block not_host not_reset { s with sched := rest }
  rw [step_move sched, moved] at stepped
  cases stepped
  exact ⟨counts.urx, counts.srx, counts.utx, counts.stx⟩

end Sys2Proof.Proofs
end

section
/-!
PROOFS. The decoder and the encoder agree (R57 to R66): decode of encode format by format, and encode of decode for an HREQ.
-/

namespace Sys2Proof.Proofs

open Sys2Proof.Laws

/-! ### The rows of the reserved codes (R48, R59, R165)

A well-formed term for a reserved code holds a code that none of the decoder's other rows names, so the last row
answers it. -/

theorem decodeRead_reserved {off : Byte} (reserved : (Instr.rdReserved off).wf = true) :
    decodeRead off = .rdReserved off := by
  unfold decodeRead
  split
  case h_20 => rfl
  all_goals
    next row =>
    obtain ⟨-, rfl⟩ := BitVec.toNat_eq_nat.mp row
    cases reserved

theorem decodeWrite_reserved {off v : Byte} (reserved : (Instr.wrReserved off v).wf = true) :
    decodeWrite off v = .wrReserved off v := by
  unfold decodeWrite
  split
  case h_20 => rfl
  all_goals
    next row =>
    obtain ⟨-, rfl⟩ := BitVec.toNat_eq_nat.mp row
    cases reserved

theorem decodePin_reserved {w : BitVec 17} (reserved : (Instr.pinReserved w).wf = true) :
    decodePin w = .pinReserved w := by
  unfold decodePin
  split
  case h_3 => rfl
  all_goals
    next row =>
    obtain ⟨-, rfl⟩ := BitVec.toNat_eq_nat.mp row
    cases reserved

theorem decodeSncmd_reserved {n : SockIx} {c : Byte} (reserved : (Instr.cmdReserved n c).wf = true) :
    decodeSncmd n c = .cmdReserved n c := by
  unfold decodeSncmd
  split
  case h_11 => rfl
  all_goals
    next row =>
    obtain ⟨-, rfl⟩ := BitVec.toNat_eq_nat.mp row
    cases reserved

/-! ### A word of each format decodes by its row -/

theorem decode_read {off : Byte} {i : Instr} (row : decodeRead off = i) :
    decode (.hreq (hreqWord false false off 0)) = .ok i := by
  rw [decode, decodeHreq_read, row]

theorem decode_write {off v : Byte} {i : Instr} (row : decodeWrite off v = i) :
    decode (.hreq (hreqWord false true off v)) = .ok i := by
  rw [decode, decodeHreq_write, row]

theorem decode_pin {w : BitVec 17} {i : Instr} (row : decodePin w = i) : decode (.hreq (pinWord w)) = .ok i := by
  rw [decode, decodeHreq_pin, row]

theorem decode_push (q : RingId) (v : Byte) : decode (.rbop q (rbopWord 0 v)) = .ok (.rbPush q v) := by
  rw [decode, decodeRbop, rbopWord_op, rbopWord_data]
  rfl

/-- A frame with a reserved block select decodes whatever its number of data bytes (R134). -/
theorem decode_reservedFrame {b : Bsb} {off : Word16} {rwb : Bool} {om : OpMode} {data : List Byte} {i : Instr}
    (reserved : reservedBsb b = true) (row : decodeReserved (bsbSock b) off rwb om data = i) :
    decode (.frame (frameBytes b rwb off om data)) = .ok i := by
  rw [decode, decodeFrame_frameBytes, if_pos reserved, row]

/-- A frame of any other block decodes where its mode admits its data (R64, R137). -/
theorem decode_blockFrame {b : Bsb} {off : Word16} {rwb : Bool} {om : OpMode} {data : List Byte} {i : Instr}
    (accepted : reservedBsb b = false) (admitted : om.admits data.length = true)
    (row : decodeBlock b off rwb om data = i) : decode (.frame (frameBytes b rwb off om data)) = .ok i := by
  rw [decode, decodeFrame_frameBytes, accepted, if_neg Bool.false_ne_true, if_pos admitted, row]

theorem length_dummies (len : Nat) : (dummies len).length = len := List.length_replicate

theorem admits_dummies {om : OpMode} {len : Nat} (admitted : om.admits len = true) :
    om.admits (dummies len).length = true := by
  rw [length_dummies, admitted]

/-! ### Decode of encode -/

/-- Settles O1, by the instruction: its format's word decodes by its row, and a reserved code reaches the last row. -/
theorem decodeOfEncodeIsIdentity : Obligations.DecodeOfEncodeIsIdentity := by
  intro i wf
  cases i with
  | rdUartData | rdUartStatus | rdUartCtrl | rdUartFrame | rdUartBaud | rdUartDivl | rdUartDivh | rdUartRxcnt
  | rdUartTxcnt | rdUartErr | rdUartCmd | rdSpiData | rdSpiStatus | rdSpiCtrl | rdSpiClksel | rdSpiSs | rdSpiRxcnt
  | rdSpiTxcnt | rdSpiCmd => exact decode_read rfl
  | wrUartData v | wrUartStatus v | wrUartCtrl v | wrUartFrame v | wrUartBaud v | wrUartDivl v | wrUartDivh v
  | wrUartRxcnt v | wrUartTxcnt v | wrUartErr v | wrUartCmd v | wrSpiData v | wrSpiStatus v | wrSpiCtrl v
  | wrSpiClksel v | wrSpiSs v | wrSpiRxcnt v | wrSpiTxcnt v | wrSpiCmd v => exact decode_write rfl
  | rdReserved off => exact decode_read (decodeRead_reserved wf)
  | wrReserved off v => exact decode_write (decodeWrite_reserved wf)
  | pinSfpHardReset | pinDelaySettle => exact decode_pin rfl
  | pinReserved w => exact decode_pin (decodePin_reserved wf)
  | rbPush q v => exact decode_push q v
  | rbPop q | rbCount q | rbClear q => rfl
  | frameReservedBsb4 off rwb om data | frameReservedBsb8 off rwb om data | frameReservedBsb12 off rwb om data
  | frameReservedBsb16 off rwb om data | frameReservedBsb20 off rwb om data | frameReservedBsb24 off rwb om data
  | frameReservedBsb28 off rwb om data => exact decode_reservedFrame rfl rfl
  | frameCommonRead off om len =>
    exact decode_blockFrame reservedBsb_zero (admits_dummies wf)
      (congrArg (Instr.frameCommonRead off om) (length_dummies len))
  | frameCommonWrite off om data => exact decode_blockFrame reservedBsb_zero wf rfl
  | frameSockRegRead n off om len | frameTxBufRead n off om len | frameRxBufRead n off om len =>
    refine decode_blockFrame (reservedBsb_bsbOf n _ (by decide)) (admits_dummies wf) ?_
    unfold decodeBlock
    rw [bsbKind_bsbOf, bsbSock_bsbOf, length_dummies]
    rfl
  | frameSockRegWrite n off om data | frameTxBufWrite n off om data | frameRxBufWrite n off om data =>
    refine decode_blockFrame (reservedBsb_bsbOf n _ (by decide)) wf ?_
    unfold decodeBlock
    rw [bsbKind_bsbOf, bsbSock_bsbOf]
    rfl
  | cmdNone n | cmdOpen n | cmdListen n | cmdConnect n | cmdDiscon n | cmdClose n | cmdSend n | cmdSendMac n
  | cmdSendKeep n | cmdRecv n => rfl
  | cmdReserved n c => exact congrArg Except.ok (decodeSncmd_reserved wf)

theorem decode_of_encode {i : Instr} {r : Request} (wf : i.wf = true) (word : encode i = r) : decode r = .ok i := by
  rw [← word, decodeOfEncodeIsIdentity i wf]

/-- Settles O4: all but one of the words are what the encoder writes for their instructions; the POP carries a DATA that its
decoder ignores (R61). -/
theorem writtenWordsDecode : Obligations.WrittenWordsDecode :=
  ⟨decode_of_encode rfl rfl, decode_of_encode rfl rfl, decode_of_encode rfl rfl, decode_of_encode rfl rfl,
    decode_of_encode rfl rfl, rfl, decode_of_encode rfl rfl, decode_of_encode rfl rfl, decode_of_encode rfl rfl⟩

/-! ### Encode of decode, for an HREQ (R58 to R60) -/

theorem ofBool_getLsbD {n : Nat} (w : BitVec n) (i : Nat) : BitVec.ofBool (w.getLsbD i) = w.extractLsb' i 1 := by
  apply BitVec.eq_of_getLsbD_eq
  intro j hj
  obtain rfl : j = 0 := by omega
  simp

/-- A word written from the fields of a word is that word up to its DATA (R58). -/
theorem hreqWord_fields (w : BitVec 18) (data : Byte) :
    hreqWord (w.getLsbD 17) (w.getLsbD 16) (w.extractLsb' 8 8) data = w.extractLsb' 8 10 ++ data := by
  have kind_w : w.extractLsb' 17 1 ++ w.extractLsb' 16 1 = w.extractLsb' 16 2 :=
    BitVec.extractLsb'_append_extractLsb'_eq_extractLsb' rfl
  have high : w.extractLsb' 16 2 ++ w.extractLsb' 8 8 = w.extractLsb' 8 10 :=
    BitVec.extractLsb'_append_extractLsb'_eq_extractLsb' rfl
  rw [hreqWord, ofBool_getLsbD, ofBool_getLsbD, kind_w, high]

theorem hreqWord_fields_data (w : BitVec 18) :
    hreqWord (w.getLsbD 17) (w.getLsbD 16) (w.extractLsb' 8 8) (w.extractLsb' 0 8) = w :=
  (hreqWord_fields w _).trans BitVec.extractLsb'_append_extractLsb'

theorem pinWord_fields {w : BitVec 18} (pin : w.getLsbD 17 = true) : pinWord (w.extractLsb' 0 17) = w := by
  unfold pinWord
  rw [← pin, ofBool_getLsbD, BitVec.extractLsb'_append_extractLsb']

theorem encode_decodeRead (off : Byte) : encode (decodeRead off) = .hreq (hreqWord false false off 0) := by
  unfold decodeRead
  split
  case h_20 => rfl
  all_goals
    next row =>
    obtain ⟨-, rfl⟩ := BitVec.toNat_eq_nat.mp row
    rfl

theorem encode_decodeWrite (off v : Byte) : encode (decodeWrite off v) = .hreq (hreqWord false true off v) := by
  unfold decodeWrite
  split
  case h_20 => rfl
  all_goals
    next row =>
    obtain ⟨-, rfl⟩ := BitVec.toNat_eq_nat.mp row
    rfl

theorem encode_decodePin (w : BitVec 17) : encode (decodePin w) = .hreq (pinWord w) := by
  unfold decodePin
  split
  case h_3 => rfl
  all_goals
    next row =>
    obtain ⟨-, rfl⟩ := BitVec.toNat_eq_nat.mp row
    rfl

/-- Settles O3, by KIND and W: a pin operation and a write give back every field, a read all but DATA. -/
theorem hreqKeepsEveryBitButReadData : Obligations.HreqKeepsEveryBitButReadData := by
  intro w
  unfold decodeHreq
  cases kind : w.getLsbD 17 with
  | true => simp [encode_decodePin, pinWord_fields kind]
  | false =>
    cases write : w.getLsbD 16 with
    | true =>
      have word := hreqWord_fields_data w
      rw [kind, write] at word
      simp [encode_decodeWrite, word]
    | false =>
      have word := hreqWord_fields w 0#8
      rw [kind, write] at word
      simpa [encode_decodeRead] using word

end Sys2Proof.Proofs
end

section
/-!
PROOFS. The ring operations: what an RBOP does on a ring of the block (R61, R74 to R77), and a ring as a FIFO queue of at most CAP
bytes (R78, R79).
-/

namespace Sys2Proof.Proofs

open Sys2Proof.Laws Sys2Proof.Machine Sys2Proof.Machine.Laws

/-! ### RBOP on a ring of the block (R61, R74 to R77) -/

/-- The code OP chooses the operation, and only PUSH looks at DATA (R61). -/
theorem decodeRbop_rbopWord (q : RingId) (v : Byte) :
    decodeRbop q (rbopWord 0 v) = .rbPush q v ∧ decodeRbop q (rbopWord 1 v) = .rbPop q ∧
      decodeRbop q (rbopWord 2 v) = .rbCount q ∧ decodeRbop q (rbopWord 3 v) = .rbClear q := by
  simp only [decodeRbop, rbopWord_op, rbopWord_data]
  exact ⟨rfl, rfl, rfl, rfl⟩

theorem setRing_ring (s : State) (q : RingId) : s.setRing q (s.ring q) = s := by cases q <;> rfl

theorem respond_setRing (x : Response) (s : State) (q : RingId) (r : Ring) :
    respond x (s.setRing q r) = { s.setRing q r with responses := s.responses ++ [x] } := by
  rw [respond, setRing_responses]

theorem exec_rbPush (q : RingId) (v : Byte) (s : State) :
    exec (.rbPush q v) s =
      .next (respond (.accept ((s.ring q).push v).1) (s.setRing q ((s.ring q).push v).2)) := rfl

theorem exec_rbPop (q : RingId) (s : State) :
    exec (.rbPop q) s =
      .next (respond (.popped (s.ring q).pop.1.isSome ((s.ring q).pop.1.getD 0)) (s.setRing q (s.ring q).pop.2)) := rfl

/-- Settles O15: PUSH by whether the ring is full, POP by whether it is empty, and COUNT and CLEAR in one case each. -/
theorem ringOperationResults : Obligations.RingOperationResults := by
  intro q v s
  obtain ⟨push_word, pop_word, count_word, clear_word⟩ := decodeRbop_rbopWord q v
  refine ⟨push_word, pop_word, count_word, clear_word, ?push, ?pop, rfl, rfl⟩
  case push =>
    rw [exec_rbPush]
    split
    · next full => rw [push_full _ v full, setRing_ring]; rfl
    · next room => rw [push_room _ v room, respond_setRing]; rfl
  case pop =>
    rw [exec_rbPop]
    split
    · next empty => rw [pop_empty _ empty, setRing_ring]; rfl
    · next holds => rw [pop_some _ holds, respond_setRing]; rfl

/-! ### The live window (R78) -/

/-- Places of a window that is shorter than CAP and the place after it are different slots. -/
theorem window_slots_ne {cap j k : Nat} (tail : Nat) (before : j < k) (short : k < cap) :
    (tail + j) % cap ≠ (tail + k) % cap := by
  intro same
  have : j ≡ k [MOD cap] := Nat.ModEq.add_left_cancel' tail same
  exact before.ne (this.eq_of_lt_of_lt (before.trans short) short)

/-- A stored byte is the youngest: HEAD is the slot after the live window, so no byte of the window is overwritten. -/
theorem contents_store {r : Ring} {cap : Nat} (ok : r.Ok cap) (room : r.count < cap) (v : Byte) :
    (r.store v).contents = r.contents ++ [v] := by
  obtain ⟨rfl, cap_pos, buf_len, -, -, head_eq⟩ := ok
  have youngest : (r.buf.set r.head v).getD ((r.tail + r.count) % r.cap) 0 = v := by
    have inside : r.head < r.buf.length := by rw [buf_len, head_eq]; exact Nat.mod_lt _ cap_pos
    simp [← head_eq, inside]
  have kept : ∀ k ∈ List.range r.count,
      (r.buf.set r.head v).getD ((r.tail + k) % r.cap) 0 = r.buf.getD ((r.tail + k) % r.cap) 0 := by
    intro k live
    have other : r.head ≠ (r.tail + k) % r.cap :=
      head_eq ▸ (window_slots_ne r.tail (List.mem_range.1 live) room).symm
    simp [other]
  simp only [Ring.contents, Ring.store, List.range_succ, List.map_append, List.map_cons, List.map_nil, youngest,
    List.map_congr_left kept]

/-- The byte at TAIL is the oldest, and TAIL moves on to the next. -/
theorem contents_eq_cons {r : Ring} {cap : Nat} (ok : r.Ok cap) (holds : r.count ≠ 0) :
    r.contents = r.buf.getD r.tail 0 :: r.pop.2.contents := by
  obtain ⟨n, more⟩ := Nat.exists_eq_succ_of_ne_zero holds
  have oldest : r.tail % r.cap = r.tail := Nat.mod_eq_of_lt (ok.cap_eq ▸ ok.tail_lt)
  rw [pop_some r holds]
  simp [Ring.contents, more, oldest, List.range_succ_eq_map, Nat.add_comm, Nat.add_left_comm]

/-! ### A queue of at most CAP bytes (R79) -/

theorem push_appends {r : Ring} {cap : Nat} (ok : r.Ok cap) (room : r.count < cap) (v : Byte) :
    (r.push v).1 = true ∧ (r.push v).2.contents = r.contents ++ [v] := by
  rw [push_room r v (by rw [ok.cap_eq]; exact room.ne)]
  exact ⟨rfl, contents_store ok room v⟩

theorem pop_takes_first {r : Ring} {cap : Nat} (ok : r.Ok cap) {b : Byte} {bs : List Byte} (queue : r.contents = b :: bs) :
    r.pop.1 = some b ∧ r.pop.2.contents = bs := by
  have holds : r.count ≠ 0 := by rw [← contents_length r, queue]; exact Nat.succ_ne_zero _
  obtain ⟨rfl, rfl⟩ := List.cons.inj (queue.symm.trans (contents_eq_cons ok holds))
  exact ⟨by rw [pop_some r holds], rfl⟩

/-- Settles O16: the length of the queue is COUNT, so the queue's guards are those of R74 and R75. -/
theorem ringRefinesFifoQueue : Obligations.RingRefinesFifoQueue := by
  intro r cap ok
  refine ⟨contents_length r, fun v => ⟨ok_push ok v, fun room => ?_, fun full => ?_⟩,
    ⟨ok_pop ok, fun empty => ?_, fun b bs => pop_takes_first ok⟩, ok_clear ok, rfl⟩
  · exact push_appends ok (contents_length r ▸ room) v
  · exact push_full r v (by rw [← contents_length r, full, ok.cap_eq])
  · exact pop_empty r (by rw [← contents_length r, empty]; rfl)

end Sys2Proof.Proofs
end

section
/-!
PROOFS. HOST's plain accesses to the UART's registers, and those of the SPI master that share their rules: DATA (R84, R85, R114),
the registers that are read (R86 to R99, R123, R124), the ignored accesses (R96, R101, R125, R126), the flags (R87, R100, R116).
-/

namespace Sys2Proof.Proofs

open Sys2Proof.Laws Sys2Proof.Machine Sys2Proof.Machine.Laws

/-! ### The rows of a table of accesses (R58, R60) -/

/-- Reads decode by the rows of the decoder's table, whatever their DATA. -/
theorem reads_decode {rows : List (Byte × Instr)} (table : rows.map (fun p => decodeRead p.1) = rows.map Prod.snd)
    (x : Byte) : ∀ p ∈ rows, decodeHreq (hreqWord false false p.1 x) = p.2 := fun p row =>
  (decodeHreq_read p.1 x).trans (List.map_inj_left.1 table p row)

/-- Writes of `v` decode by the rows of the decoder's table. -/
theorem writes_decode {rows : List (Byte × Instr)} {v : Byte}
    (table : rows.map (fun p => decodeWrite p.1 v) = rows.map Prod.snd) :
    ∀ p ∈ rows, decodeHreq (hreqWord false true p.1 v) = p.2 := fun p row =>
  (decodeHreq_write p.1 v).trans (List.map_inj_left.1 table p row)

/-! ### DATA (R84, R85, R114) -/

theorem writeData_eq (q : RingId) (ovf : State → State) (v : Byte) (s : State) :
    writeData q ovf v s =
      if (s.ring q).count = (s.ring q).cap then ovf s else s.setRing q ((s.ring q).store v) := by
  rcases writeData_cases q ovf v s with ⟨full, e⟩ | ⟨room, e⟩
  · rw [e, if_pos full]
  · rw [e, if_neg room]

theorem readData_eq (q : RingId) (uf : State → State) (s : State) :
    readData q uf s =
      if (s.ring q).count = 0 then hostRead 0 (uf s)
      else hostRead ((s.ring q).buf.getD (s.ring q).tail 0) (s.setRing q
        { s.ring q with tail := ((s.ring q).tail + 1) % (s.ring q).cap, count := (s.ring q).count - 1 }) := by
  rcases readData_cases q uf s with ⟨empty, e⟩ | ⟨holds, e⟩
  · rw [e, if_pos empty]
  · rw [e, if_neg holds, popRing, pop_some _ holds]

/-- Settles O18: the write of DATA, with UTX and TXOVF. -/
theorem uartSendQueuesOrFlags : Obligations.UartSendQueuesOrFlags := fun v s =>
  ⟨decodeHreq_write 0x00 v, congrArg Host.Outcome.next (writeData_eq .utx setUartTxovf v s)⟩

/-- Settles O19: the read of DATA, with URX and with SRX and the unit's RXUF. -/
theorem dataReadsPopOrFlag : Obligations.DataReadsPopOrFlag := fun d s =>
  ⟨decodeHreq_read 0x00 d, decodeHreq_read 0x10 d, congrArg Host.Outcome.next (readData_eq .urx setUartRxuf s),
    congrArg Host.Outcome.next (readData_eq .srx setSpiRxuf s)⟩

/-! ### The registers that are read (R86 to R99, R123, R124) -/

/-- `{b7, …, b0}` holds `b0` at bit 0 up to `b7` at bit 7 (R12). -/
theorem getLsbD_packBits (b7 b6 b5 b4 b3 b2 b1 b0 : Bool) :
    (packBits b7 b6 b5 b4 b3 b2 b1 b0).getLsbD 0 = b0 ∧ (packBits b7 b6 b5 b4 b3 b2 b1 b0).getLsbD 1 = b1 ∧
    (packBits b7 b6 b5 b4 b3 b2 b1 b0).getLsbD 2 = b2 ∧ (packBits b7 b6 b5 b4 b3 b2 b1 b0).getLsbD 3 = b3 ∧
    (packBits b7 b6 b5 b4 b3 b2 b1 b0).getLsbD 4 = b4 ∧ (packBits b7 b6 b5 b4 b3 b2 b1 b0).getLsbD 5 = b5 ∧
    (packBits b7 b6 b5 b4 b3 b2 b1 b0).getLsbD 6 = b6 ∧ (packBits b7 b6 b5 b4 b3 b2 b1 b0).getLsbD 7 = b7 := by
  simp only [packBits, BitVec.getLsbD_append]
  simp

/-- The fields of `UART_FRAME` as read (R90): the five bits of the format, PAR their upper two, and zeros. -/
theorem extractLsb'_frameByte (f : FrameFmt) :
    ((fmtBits f).setWidth 8).extractLsb' 0 5 = fmtBits f ∧ ((fmtBits f).setWidth 8).extractLsb' 0 2 = f.chsz ∧
    ((fmtBits f).setWidth 8).getLsbD 2 = f.sbs ∧ ((fmtBits f).setWidth 8).extractLsb' 3 2 = parCode f.par ∧
    ((fmtBits f).setWidth 8).extractLsb' 5 3 = 0 := by
  obtain ⟨chsz, sbs, par⟩ := f
  revert chsz sbs
  cases par <;> decide

/-- The three codes of PAR are different (R20). -/
theorem parCode_iff (par : Parity) :
    (parCode par = 0 ↔ par = .absent) ∧ (parCode par = 1 ↔ par = .even) ∧ (parCode par = 2 ↔ par = .odd) := by
  cases par <;> decide

theorem uartErrByte_zeros (e : UartErr) : (uartErrByte e).extractLsb' 3 5 = 0 := by
  obtain ⟨fe, pe, cfgerr⟩ := e
  revert fe pe cfgerr
  decide

/-- Settles O20: each register is the byte of its fields. -/
theorem uartRegistersReadTheirFields : Obligations.UartRegistersReadTheirFields := by
  intro x s
  obtain ⟨-, chsz, sbs, par, zeros⟩ := extractLsb'_frameByte s.uart.frame
  obtain ⟨absent, even, odd⟩ := parCode_iff s.uart.frame.par
  obtain ⟨fe, pe, cfgerr, -⟩ :=
    getLsbD_packBits false false false false false s.uart.err.cfgerr s.uart.err.pe s.uart.err.fe
  refine ⟨reads_decode rfl x, uartStatusByte s, uartCtrlByte s.uart.ctrl, (fmtBits s.uart.frame).setWidth 8,
    BitVec.ofNat 8 s.uart.baud.val, uartErrByte s.uart.err, ⟨rfl, getLsbD_packBits ..⟩, ⟨rfl, getLsbD_packBits ..⟩,
    ⟨rfl, chsz, sbs, par ▸ absent, par ▸ even, par ▸ odd, zeros⟩, ⟨rfl, ?code⟩,
    ⟨rfl, fe, pe, cfgerr, uartErrByte_zeros _⟩⟩
  case code =>
    rw [BitVec.toNat_ofNat]
    omega

/-- Settles O21: the two bytes are the halves of the register, which under R22 holds the divisor. -/
theorem divisorReadsJoin : Obligations.DivisorReadsJoin := by
  intro x s
  have join : s.uart.div.extractLsb' 8 8 ++ s.uart.div.extractLsb' 0 8 = s.uart.div :=
    BitVec.extractLsb'_append_extractLsb'
  exact ⟨decodeHreq_read 0x05 x, decodeHreq_read 0x06 x, _, _, rfl, rfl, join, fun ok => by rw [join, ok.div_eq]⟩

/-- Legal capacities are at most 255 (R6, R80). -/
theorem capacities_le {c : Config} (wf : c.wf = true) :
    c.capUrx ≤ 255 ∧ c.capUtx ≤ 255 ∧ c.capSrx ≤ 255 ∧ c.capStx ≤ 255 := by
  have caps := (wf_bounds wf).1
  simp only [Config.capsLegal, Bool.and_eq_true, List.all_cons, List.all_nil, decide_eq_true_eq] at caps
  omega

/-- COUNT of a ring whose capacity is at most 255 fits its byte (R76). -/
theorem countByte_toNat {r : Ring} {cap : Nat} (ok : r.Ok cap) (small : cap ≤ 255) :
    (countByte r.count).toNat = r.count := by
  have := ok.count_le
  simp only [countByte, BitVec.toNat_ofNat]
  omega

/-- Settles O22: each register reads COUNT, at most the ring's capacity, which is at most 255. -/
theorem countRegistersReadTheCounts : Obligations.CountRegistersReadTheCounts := by
  intro x s
  refine ⟨reads_decode rfl x, _, _, _, _, rfl, rfl, rfl, rfl, fun wf ok => ?_⟩
  obtain ⟨urx, utx, srx, stx⟩ := capacities_le wf
  exact ⟨countByte_toNat ok.urx urx, countByte_toNat ok.utx utx, countByte_toNat ok.srx srx,
    countByte_toNat ok.stx stx⟩

/-! ### Constant reads, ignored writes, flags written with 1 -/

/-- Settles O23: each meaning is the constant response or the state itself. -/
theorem constantReadsAndIgnoredWrites : Obligations.ConstantReadsAndIgnoredWrites := fun _ _ _ =>
  ⟨reads_decode rfl _, writes_decode rfl, List.map_inj_left.1 rfl, List.map_inj_left.1 rfl⟩

/-- Settles O24: `w1c` keeps a flag exactly where its bit is 0. -/
theorem writeOneClearsFlags : Obligations.WriteOneClearsFlags := fun _ _ => ⟨writes_decode rfl, rfl, rfl, rfl⟩

end Sys2Proof.Proofs
end

section
/-!
PROOFS. HOST's writes of the UART's configuration (R89, R91, R93): what is stored, what is ignored, and when CFGERR is set.
-/

namespace Sys2Proof.Proofs

open Sys2Proof.Laws Sys2Proof.Machine Sys2Proof.Machine.Laws

/-! ### Enables and divisors in the terms of the rules -/

theorem uart_enabled_iff (u : Uart) : u.enabled = true ↔ u.ctrl.rxen = true ∨ u.ctrl.txen = true := by
  rw [Uart.enabled, Bool.or_eq_true]

theorem divisorValid_iff (d : Int) : divisorValid d = true ↔ 0 ≤ d ∧ d ≤ 0xFFFF := by
  rw [divisorValid, decide_eq_true_eq]

/-! ### UART_CTRL (R89) -/

/-- The configuration part: a write that repeats it changes nothing; a change while enabled, or of U2X to a divisor that is
not valid, sets CFGERR alone; any other is taken, with the divisor of the new U2X (R89). -/
theorem uartCtrlConfig_eq (v : Byte) (s : State) :
    uartCtrlConfig v s =
      if v.getLsbD 4 = s.uart.ctrl.u2x ∧ v.getLsbD 5 = s.uart.ctrl.txmode ∧ v.getLsbD 6 = s.uart.ctrl.loop then s
      else if s.uart.enabled = true ∨
          (v.getLsbD 4 ≠ s.uart.ctrl.u2x ∧ divisorValid (divisorOf s s.uart.baud (v.getLsbD 4)) = false) then
        setUartCfgerr s
      else s.onUart fun u =>
        { u with
          ctrl := { u.ctrl with u2x := v.getLsbD 4, txmode := v.getLsbD 5, loop := v.getLsbD 6 }
          div := divBits (divisorOf s s.uart.baud (v.getLsbD 4)) } := by
  rw [ite_or]
  rfl

/-- Settles O25: the configuration part by its three cases, then the enables. -/
theorem uartCtrlWriteEffect : Obligations.UartCtrlWriteEffect := by
  intro v s kept same d ignored
  have write : exec (.wrUartCtrl v) s = .next (uartCtrlEnables v (uartCtrlConfig v s)) := rfl
  have ignored_iff : (s.uart.enabled = true ∨
      (v.getLsbD 4 ≠ s.uart.ctrl.u2x ∧ divisorValid (divisorOf s s.uart.baud (v.getLsbD 4)) = false)) ↔ ignored := by
    rw [uart_enabled_iff, Bool.eq_false_iff, ne_eq, ne_eq, divisorValid_iff]
    exact Iff.rfl
  rw [write, uartCtrlConfig_eq]
  refine ⟨decodeHreq_write 0x02 v, fun unchanged => ?_, fun change drop => ?_, fun change take => ?_⟩
  · rw [if_pos unchanged]; rfl
  · rw [if_neg change, if_pos (ignored_iff.2 drop)]; rfl
  · rw [if_neg change, if_neg (mt ignored_iff.1 take)]; rfl

/-! ### UART_FRAME (R91) -/

theorem parOfCode_eq_none_iff (c : BitVec 2) : parOfCode c = none ↔ c = 3 := by
  revert c
  decide

theorem parCode_of_parOfCode {c : BitVec 2} {p : Parity} (h : parOfCode c = some p) : parCode p = c := by
  revert c
  cases p <;> decide

/-- A format is refused exactly for the reserved parity code (R91). -/
theorem fmtOfBits_eq_none_iff (w : BitVec 5) : fmtOfBits w = none ↔ w.extractLsb' 3 2 = 3 := by
  rw [fmtOfBits, Option.map_eq_none_iff, parOfCode_eq_none_iff]

theorem append_formatFields (w : BitVec 5) :
    w.extractLsb' 3 2 ++ BitVec.ofBool (w.getLsbD 2) ++ w.extractLsb' 0 2 = w := by
  revert w
  decide

/-- A format is the five bits it was made from (R20). -/
theorem fmtBits_of_fmtOfBits {w : BitVec 5} {f : FrameFmt} (h : fmtOfBits w = some f) : fmtBits f = w := by
  obtain ⟨p, code, rfl⟩ := Option.map_eq_some_iff.1 h
  rw [fmtBits, parCode_of_parOfCode code]
  exact append_formatFields w

/-- PAR of the five bits that a write stores is bits 4:3 of the write (R91). -/
theorem extractLsb'_par (v : Byte) : (v.extractLsb' 0 5).extractLsb' 3 2 = v.extractLsb' 3 2 := by
  revert v
  decide

/-- The five bits of a write, as read back (R90, R91). -/
theorem setWidth_low5 (v : Byte) : (v.extractLsb' 0 5).setWidth 8 = v &&& 0x1F := by
  revert v
  decide

/-- Settles O26, by the enables and the parity code: the stored format reads back as the bits it was made from. -/
theorem uartFrameWriteEffect : Obligations.UartFrameWriteEffect := by
  intro v s flagged
  have write : exec (.wrUartFrame v) s = .next (uartFrameWrite v s) := rfl
  have reserved_iff : fmtOfBits (v.extractLsb' 0 5) = none ↔ v.extractLsb' 3 2 = 3 := by
    rw [fmtOfBits_eq_none_iff, extractLsb'_par]
  refine ⟨decodeHreq_write 0x03 v, fun enabled => ⟨(fmtBits s.uart.frame).setWidth 8, rfl, ?_⟩,
    fun disabled reserved => ?_, fun disabled known => ?_⟩
  · rw [write, uartFrameWrite, if_pos enabled, (extractLsb'_frameByte s.uart.frame).1]; rfl
  · rw [write, uartFrameWrite, disabled, reserved_iff.2 reserved]; rfl
  · obtain ⟨f, stored⟩ := Option.ne_none_iff_exists'.1 (mt reserved_iff.1 known)
    refine ⟨f, ?_, ?_⟩
    · rw [write, uartFrameWrite, disabled, stored]; rfl
    · rw [← setWidth_low5, ← fmtBits_of_fmtOfBits stored]; rfl

/-! ### UART_BAUD (R93) -/

/-- BAUDTAB, row by row (R21). -/
theorem baudTab_rows : ∀ p ∈ [((0 : Fin 9), 2400), (1, 4800), (2, 9600), (3, 14400), (4, 19200), (5, 38400), (6, 57600),
    (7, 76900), (8, 115200)], baudTab p.1 = p.2 := by decide

/-- A code of the table, written while disabled: taken with its divisor where that is valid, else ignored with CFGERR
(R93). -/
theorem uartBaudWrite_code {v : Byte} {s : State} (disabled : s.uart.enabled = false) (k : Fin 9)
    (code : (v.extractLsb' 0 4).toNat = k.val) :
    uartBaudWrite v s =
      if divisorValid (divisorOf s k s.uart.ctrl.u2x) then
        s.onUart fun u => { u with baud := k, div := divBits (divisorOf s k s.uart.ctrl.u2x) }
      else setUartCfgerr s := by
  have row : (⟨(v.extractLsb' 0 4).toNat, code ▸ k.isLt⟩ : Fin 9) = k := Fin.ext code
  simp only [uartBaudWrite, disabled, Bool.false_eq_true, if_false, dif_pos (code ▸ k.isLt), row]

/-- A reserved code, written while disabled, is ignored with CFGERR (R93). -/
theorem uartBaudWrite_reserved {v : Byte} {s : State} (disabled : s.uart.enabled = false)
    (reserved : 8 < (v.extractLsb' 0 4).toNat) : uartBaudWrite v s = setUartCfgerr s := by
  simp only [uartBaudWrite, disabled, Bool.false_eq_true, if_false, dif_neg (Nat.not_lt.2 reserved)]

/-- Settles O27, by the enables and the code: the rows are those of `baudTab`. -/
theorem uartBaudWriteEffect : Obligations.UartBaudWriteEffect := by
  intro v s c flagged
  have write : exec (.wrUartBaud v) s = .next (uartBaudWrite v s) := rfl
  refine ⟨decodeHreq_write 0x04 v, fun enabled => ?_, fun disabled reserved => ?_,
    fun disabled p row code => ?_⟩
  · rw [write, uartBaudWrite, if_pos enabled]; rfl
  · rw [write, uartBaudWrite_reserved disabled reserved]; rfl
  · intro d
    have rate : baudTab p.1 = p.2 := baudTab_rows p row
    have div_eq : divisorOf s p.1 s.uart.ctrl.u2x = d := by rw [divisorOf, rate]; rfl
    rw [write, uartBaudWrite_code disabled p.1 code, div_eq]
    simp only [divisorValid_iff]
    rfl

end Sys2Proof.Proofs
end

section
/-!
PROOFS. The command registers (R102, R127) and the steps that take the oldest byte of a transmit ring (R104, R128).
-/

namespace Sys2Proof.Proofs

open Sys2Proof.Laws Sys2Proof.Machine Sys2Proof.Machine.Laws

/-! ### The command registers (R102, R127) -/

/-- A clear bit of a CMD register, as what it puts in place of its ring (R77). -/
theorem clearBit_eq (b : Bool) (q : RingId) (s : State) :
    (if b then clearRing q s else s) = s.setRing q (if b then (s.ring q).clear else s.ring q) := by
  cases b with
  | true => rfl
  | false => exact (setRing_ring s q).symm

theorem uartCmdWrite_eq (v : Byte) (s : State) :
    uartCmdWrite v s =
      { s with urx := if v.getLsbD 0 then s.urx.clear else s.urx, utx := if v.getLsbD 1 then s.utx.clear else s.utx } := by
  simp only [uartCmdWrite, clearBit_eq, ring_urx, ring_utx, setRing_urx, setRing_utx]

/-- GO reaches the master's registers alone: CFGERR outside buffered mode, nothing in a drain or with STX empty, and else the
start of a drain (R127). -/
theorem spiGo_eq (s : State) :
    spiGo s = { s with
      spi := if s.spi.ctrl.spe = false ∨ s.spi.ctrl.buf = false then
          { s.spi with flags := { s.spi.flags with cfgerr := true } }
        else if s.spi.drain = .active ∨ s.stx.count = 0 then s.spi
        else { s.spi with drain := .active, auto := true } } := by
  unfold spiGo
  split
  · rfl
  · split
    · next running => rw [if_pos (.inl running)]
    · next resting =>
      split
      · next empty => rw [if_pos (.inr empty)]
      · next queued => rw [if_neg (not_or.2 ⟨resting, queued⟩)]; rfl

theorem spiCmdWrite_eq (v : Byte) (s : State) :
    spiCmdWrite v s =
      let cleared : State := { s with
        srx := if v.getLsbD 0 then s.srx.clear else s.srx, stx := if v.getLsbD 1 then s.stx.clear else s.stx }
      if v.getLsbD 2 then spiGo cleared else cleared := by
  simp only [spiCmdWrite, clearBit_eq, ring_srx, ring_stx, setRing_srx, setRing_stx]

/-- Settles O28: the clear bits put an emptied ring in place, and GO looks at STX after them. -/
theorem commandWritesClearAndStart : Obligations.CommandWritesClearAndStart := by
  intro v s clr
  refine ⟨decodeHreq_write 0x0A v, decodeHreq_write 0x17 v, congrArg Host.Outcome.next (uartCmdWrite_eq v s),
    congrArg Host.Outcome.next ((spiCmdWrite_eq v s).trans ?_)⟩
  cases go : v.getLsbD 2 with
  | false => rfl
  | true => exact spiGo_eq _

/-! ### The load steps (R104, R128) -/

/-- The UTX load step takes the oldest byte of UTX with the present format (R104). -/
theorem utxStart_eq (s : State) :
    utxStart s =
      if s.uart.ctrl.txen = true ∧ s.uart.txsh = .idle ∧ 0 < s.utx.count then
        { s with utx := { s.utx with tail := (s.utx.tail + 1) % s.utx.cap, count := s.utx.count - 1 },
                 uart := { s.uart with txsh := .busy (s.utx.buf.getD s.utx.tail 0) s.uart.frame } }
      else s := by
  unfold utxStart
  split
  · next ready =>
    by_cases empty : s.utx.count = 0
    · rw [if_neg fun enabled => enabled.2.2.ne' empty, pop_empty _ empty]
    · rw [if_pos ⟨ready.1, ready.2, Nat.pos_of_ne_zero empty⟩, popRing, ring_utx, pop_some _ empty]; rfl
  · next waiting => rw [if_neg fun enabled => waiting ⟨enabled.1, enabled.2.1⟩]

/-- The drain step takes the oldest byte of STX, or ends the drain where STX is empty (R128). -/
theorem spiDrain_eq (s : State) :
    spiDrain s =
      if s.spi.drain = .active ∧ s.spi.sh = .idle then
        if s.stx.count = 0 then { s with spi := { s.spi with drain := .idle, auto := false } }
        else { s with stx := { s.stx with tail := (s.stx.tail + 1) % s.stx.cap, count := s.stx.count - 1 },
                      spi := { s.spi with sh := .busy (s.stx.buf.getD s.stx.tail 0), auto := true } }
      else s := by
  unfold spiDrain
  split
  · next ready =>
    by_cases empty : s.stx.count = 0
    · rw [if_pos empty, pop_empty _ empty]; rfl
    · rw [if_neg empty, popRing, ring_stx, pop_some _ empty]; exact if_pos ready.2
  · rfl

/-- Settles O29: the two steps. -/
theorem loadStepsTakeTheOldestByte : Obligations.LoadStepsTakeTheOldestByte := fun s =>
  ⟨congrArg Host.Outcome.next (utxStart_eq s), congrArg Host.Outcome.next (spiDrain_eq s)⟩

end Sys2Proof.Proofs
end

section
/-!
PROOFS. Frames of the UART (R105, R106): the data bits of a format (R82), the parity of a byte as the count of its ones (R83),
what the receive engine does with a frame, and the completion step with and without loopback.
-/

namespace Sys2Proof.Proofs

open Sys2Proof.Laws Sys2Proof.Machine Sys2Proof.Machine.Laws

/-! ### Data bits (R82) -/

/-- The low `nb` bits are kept, and the bits above are 0 (R106). -/
theorem getLsbD_lowBits (nb : Nat) (b : Byte) {i : Nat} (hi : i < 8) :
    (lowBits nb b).getLsbD i = (decide (i < nb) && b.getLsbD i) := by
  rw [lowBits, BitVec.getLsbD_and, BitVec.getLsbD_ofNat, Nat.testBit_two_pow_sub_one, decide_eq_true hi, Bool.true_and,
    Bool.and_comm]

theorem lowBits_lowBits (nb : Nat) (b : Byte) : lowBits nb (lowBits nb b) = lowBits nb b := by
  rw [lowBits, lowBits, BitVec.and_assoc, BitVec.and_self]

/-! ### Parity (R83) -/

/-- The number of ones of a byte. -/
def ones (d : Byte) : Nat := ((List.range 8).filter fun i => d.getLsbD i).length

/-- An XOR over a list is the parity of the number of ones in it. -/
theorem foldl_xor_eq_parity (f : Nat → Bool) (l : List Nat) (b : Bool) :
    l.foldl (fun x i => x ^^ f i) b = (b ^^ decide ((l.filter f).length % 2 = 1)) := by
  induction l generalizing b with
  | nil => simp
  | cons i l ih =>
    rw [List.foldl_cons, ih, List.filter_cons]
    cases f i with
    | false => simp
    | true =>
      rcases Nat.mod_two_eq_zero_or_one (l.filter f).length with even | odd
      · simp [even, Nat.add_mod]
      · simp [odd, Nat.add_mod]

theorem xorBits_eq (d : Byte) : xorBits d = decide (ones d % 2 = 1) := by
  have fold := foldl_xor_eq_parity (fun i => d.getLsbD i) (List.range 8) false
  rw [Bool.false_xor] at fold
  rw [ones, ← fold]
  simp [List.range_succ, xorBits]

/-- Where a format has parity, its bit is the one that makes the number of ones even, for even parity, or odd (R83). -/
theorem eq_parityBit_iff {par : Parity} (present : par ≠ .absent) (d : Byte) (x : Bool) :
    some x = parityBit par d ↔ ((ones d + x.toNat) % 2 = 0 ↔ par = .even) := by
  cases par with
  | absent => exact absurd rfl present
  | even | odd => cases x <;> simp [parityBit, xorBits_eq, Nat.succ_mod_two_eq_zero_iff]

theorem parityBit_present {par : Parity} (present : par ≠ .absent) (d : Byte) : ∃ x, parityBit par d = some x := by
  cases par with
  | absent => exact absurd rfl present
  | even | odd => exact ⟨_, rfl⟩

/-! ### The receive engine (R106) -/

/-- A ring after PUSH (R74). -/
theorem push_snd (r : Ring) (v : Byte) : (r.push v).2 = if r.count = r.cap then r else r.store v := by
  split
  · next full => rw [push_full r v full]
  · next room => rw [push_room r v room]

theorem receive_off {s : State} (off : s.uart.ctrl.rxen = false) (f : RxFrame) : receive f s = s := by
  rw [receive, off]
  rfl

theorem receive_on {s : State} (on : s.uart.ctrl.rxen = true) (f : RxFrame) :
    receive f s = { s with
      urx := (s.urx.push (lowBits (dataBits s.uart.frame) f.d)).2,
      uart := { s.uart with err := { s.uart.err with
        fe := s.uart.err.fe || frameError f, pe := s.uart.err.pe || parityError s.uart.frame f } } } := by
  rw [receive, if_pos on]
  rfl

/-- PE is no part of a format without parity. -/
theorem parityError_absent {fmt : FrameFmt} (absent : fmt.par = .absent) (f : RxFrame) : parityError fmt f = false := by
  simp [parityError, absent]

/-- A frame with no parity bit is never the one that parity expects (log 13). -/
theorem parityError_missing {fmt : FrameFmt} (present : fmt.par ≠ .absent) {f : RxFrame} (missing : f.p = none) :
    parityError fmt f = true := by
  obtain ⟨x, bit⟩ := parityBit_present present (lowBits (dataBits fmt) f.d)
  simp [parityError, present, missing, bit]

/-- PE of a frame with a parity bit, by the number of ones (R83, R106). -/
theorem parityError_bit {fmt : FrameFmt} (present : fmt.par ≠ .absent) {f : RxFrame} {x : Bool} (bit : f.p = some x) :
    parityError fmt f =
      decide (¬((ones (lowBits (dataBits fmt) f.d) + x.toNat) % 2 = 0 ↔ fmt.par = .even)) := by
  simp only [parityError, bit, ne_eq, present, not_false_eq_true, decide_true, Bool.true_and,
    eq_parityBit_iff present]

/-- Settles O32: a discarded frame leaves the state, and a received one is the receive engine's. -/
theorem lineFrameIsReceived : Obligations.LineFrameIsReceived := by
  intro s d p s1 s2
  refine ⟨lineFrame ⟨d, some p, s1, s2⟩ s, rfl, fun discarded => ?_, fun on line => ?_⟩
  · rcases discarded with off | looped
    · rw [lineFrame, receive_off off, ite_self]
    · rw [lineFrame, if_pos looped]
  · have received : lineFrame ⟨d, some p, s1, s2⟩ s = receive ⟨d, some p, s1, s2⟩ s := by rw [lineFrame, line]; rfl
    rw [received, receive_on on]
    refine ⟨rfl, rfl, rfl, fun absent => ?_, lowBits (dataBits s.uart.frame) d, fun i hi => getLsbD_lowBits _ d hi,
      fun present => ?_, push_snd _ _⟩
    · rw [parityError_absent absent, Bool.or_false]
    · rw [parityError_bit present rfl]; rfl

/-! ### The completion step (R105) -/

/-- The frame that a shifter's byte and format put on the line (R105). -/
def sentFrame (b : Byte) (fmt : FrameFmt) : RxFrame where
  d := lowBits (dataBits fmt) b
  p := parityBit fmt.par (lowBits (dataBits fmt) b)
  s1 := true
  s2 := true

theorem sentFrame_parity {fmt : FrameFmt} (present : fmt.par ≠ .absent) (b : Byte) :
    ∃ x, (sentFrame b fmt).p = some x ∧ ((ones (sentFrame b fmt).d + x.toNat) % 2 = 0 ↔ fmt.par = .even) := by
  obtain ⟨x, bit⟩ := parityBit_present present (sentFrame b fmt).d
  exact ⟨x, bit, (eq_parityBit_iff present _ x).1 bit.symm⟩

theorem sentFrame_no_parity {fmt : FrameFmt} (absent : fmt.par = .absent) (b : Byte) : (sentFrame b fmt).p = none := by
  rw [sentFrame, absent]
  rfl

/-- A frame received in the format it was sent in has the parity that is expected. -/
theorem parityError_sentFrame (b : Byte) (fmt : FrameFmt) : parityError fmt (sentFrame b fmt) = false := by
  simp [parityError, sentFrame, lowBits_lowBits]

/-- What loopback makes of a sent frame (R105). -/
def loopback (f : RxFrame) (s : State) : State := if s.uart.ctrl.loop then receive f s else s

/-- The completion step of a busy shifter: the event, the flags, and of loopback URX and the error flags (R105). -/
theorem utxFinish_busy {s : State} {b : Byte} {fmt : FrameFmt} (busy : s.uart.txsh = .busy b fmt) :
    utxFinish s = { s with
      trace := s.trace ++ [.uartTxFrame (sentFrame b fmt).d (dataBits fmt) (sentFrame b fmt).p (stopBits fmt)],
      urx := (loopback (sentFrame b fmt) s).urx,
      uart := { s.uart with
        txsh := .idle,
        err := (loopback (sentFrame b fmt) s).uart.err,
        flags := { s.uart.flags with
          txc := true, txdone := s.uart.flags.txdone || decide (s.utx.count = 0) } } } := by
  unfold utxFinish loopback
  rw [busy]
  cases loop : s.uart.ctrl.loop with
  | false => rfl
  | true =>
    cases on : s.uart.ctrl.rxen with
    | false =>
      simp only [if_true, receive_off (s := s) on, receive_off (s := emit _ s) on]
      rfl
    | true =>
      simp only [if_true, receive_on (s := s) on, receive_on (s := emit _ s) on]
      rfl

/-- Settles O30: the step as `utxFinish_busy` says, and no loopback leaves URX and the error flags. -/
theorem utxCompletesTheFrame : Obligations.UtxCompletesTheFrame := by
  intro s b fmt busy
  refine ⟨(sentFrame b fmt).d, (sentFrame b fmt).p, utxFinish s, rfl, fun i hi => getLsbD_lowBits _ b hi,
    fun absent => sentFrame_no_parity absent b, fun present => sentFrame_parity present b, ?step, ?no_loop⟩
  case step => rw [utxFinish_busy busy]; rfl
  case no_loop =>
    intro direct
    rw [utxFinish_busy busy, loopback, direct]
    exact ⟨rfl, rfl⟩

/-- URX takes a looped frame where the receiver is on and URX has room (R105, R106). -/
theorem receive_urx (f : RxFrame) (s : State) :
    (receive f s).urx = if s.uart.ctrl.rxen = true ∧ s.urx.count ≠ s.urx.cap then
      s.urx.store (lowBits (dataBits s.uart.frame) f.d) else s.urx := by
  cases on : s.uart.ctrl.rxen with
  | false => rw [receive_off on, if_neg (by simp)]
  | true =>
    rw [receive_on on]
    simp [push_snd]

/-- The receiver, where it is on, adds the frame's errors to the error flags (R106). -/
theorem receive_err (f : RxFrame) (s : State) :
    (receive f s).uart.err = { s.uart.err with
      fe := s.uart.err.fe || (s.uart.ctrl.rxen && frameError f),
      pe := s.uart.err.pe || (s.uart.ctrl.rxen && parityError s.uart.frame f) } := by
  cases on : s.uart.ctrl.rxen with
  | false => rw [receive_off on]; simp
  | true => rw [receive_on on]; rfl

/-- A looped frame has its stop bit, so of the error flags only PE may change (R105, R106). -/
theorem receive_sentFrame_err (b : Byte) (fmt : FrameFmt) (s : State) :
    (receive (sentFrame b fmt) s).uart.err = { s.uart.err with
      pe := s.uart.err.pe || (s.uart.ctrl.rxen && parityError s.uart.frame (sentFrame b fmt)) } := by
  rw [receive_err]
  simp [frameError, sentFrame]

/-- Settles O31: the step as `utxFinish_busy` says, with loopback the receive engine's. -/
theorem loopbackDeliversWhatWasSent : Obligations.LoopbackDeliversWhatWasSent := by
  intro s b fmt busy loop
  have looped : loopback (sentFrame b fmt) s = receive (sentFrame b fmt) s := if_pos loop
  have step := utxFinish_busy busy
  rw [looped, receive_sentFrame_err] at step
  refine ⟨(sentFrame b fmt).d, lowBits (dataBits s.uart.frame) (sentFrame b fmt).d, (sentFrame b fmt).p, utxFinish s,
    rfl, ?_⟩
  rw [step]
  refine ⟨rfl, fun i hi => getLsbD_lowBits _ b hi, fun i hi => getLsbD_lowBits _ _ hi,
    fun absent => sentFrame_no_parity absent b, fun present => sentFrame_parity present b, rfl, receive_urx _ s,
    ?unchecked, ?missing, ?checked, ?unchanged⟩
  case unchecked =>
    rintro (off | absent)
    · simp [off]
    · simp [parityError_absent absent]
  case missing =>
    intro on present missing
    simp [on, parityError_missing present missing]
  case checked =>
    intro on present x bit
    rw [on, parityError_bit present bit]
    rfl
  case unchanged =>
    rintro rfl
    exact ⟨lowBits_lowBits _ b, by simp [parityError_sentFrame]⟩

end Sys2Proof.Proofs
end

section
/-!
PROOFS. HOST's accesses to the SPI master's registers: DATA (R112, R113), the registers that are read (R115 to R121), and the
writes of SPI_CTRL, SPI_CLKSEL and SPI_SS with what they ignore and when CFGERR is set (R118, R120, R122).
-/

namespace Sys2Proof.Proofs

open Sys2Proof.Laws Sys2Proof.Machine Sys2Proof.Machine.Laws

/-! ### SPI_DATA (R112, R113) -/

/-- Settles O34, by the mode and the enable: `writeData_eq` for STX and TXOVF, and LOAD. -/
theorem spiDataWriteEffect : Obligations.SpiDataWriteEffect := by
  intro v s
  have write : exec (.wrSpiData v) s = .next (spiDataWrite v s) := rfl
  refine ⟨decodeHreq_write 0x10 v, ?_⟩
  rw [write, spiDataWrite]
  cases s.spi.ctrl.buf with
  | true => exact congrArg Host.Outcome.next (writeData_eq .stx setSpiTxovf v s)
  | false =>
    cases s.spi.ctrl.spe with
    | true => rfl
    | false => rfl

/-! ### The registers that are read (R115, R117, R119, R121) -/

/-- The fields of `SPI_SS` as read: SSIDX, zeros, HOLD (R121). -/
theorem spiSsByte_fields (hold : Bool) (i : BitVec 3) :
    (spiSsByte hold i).extractLsb' 0 3 = i ∧ (spiSsByte hold i).extractLsb' 3 4 = 0 ∧
    (spiSsByte hold i).getLsbD 7 = hold := by
  revert hold i
  decide

/-- Settles O35: each register is the byte of its fields. -/
theorem spiRegistersReadTheirFields : Obligations.SpiRegistersReadTheirFields := by
  intro x s
  refine ⟨reads_decode rfl x, spiStatusByte s, spiCtrlByte s.spi.ctrl, BitVec.ofNat 8 s.spi.clksel.val,
    spiSsByte s.spi.hold s.spi.ssidx, ⟨rfl, getLsbD_packBits ..⟩, ⟨rfl, getLsbD_packBits ..⟩, ⟨rfl, ?code⟩,
    ⟨rfl, spiSsByte_fields ..⟩⟩
  case code =>
    rw [BitVec.toNat_ofNat]
    omega

/-! ### SPI_CTRL (R118, R111) -/

/-- "Busy" in the terms of the rules (R118, R122). -/
theorem spi_busy_iff (p : Spi) : p.busy = true ↔ p.sh ≠ .idle ∨ p.drain = .active := by
  simp [Spi.busy]

/-- `{BUF, CPHA, CPOL, DORD, MSTR}` holds MSTR at bit 0 up to BUF at bit 4 (R118). -/
theorem getLsbD_spiConfigBits (k : SpiCtrl) :
    (spiConfigBits k).getLsbD 0 = k.mstr ∧ (spiConfigBits k).getLsbD 1 = k.dord ∧ (spiConfigBits k).getLsbD 2 = k.cpol ∧
    (spiConfigBits k).getLsbD 3 = k.cpha ∧ (spiConfigBits k).getLsbD 4 = k.buf := by
  simp only [spiConfigBits, BitVec.getLsbD_append]
  simp

/-- The five configuration bits of a write are those of `k`, bit by bit (R118). -/
theorem extractLsb'_eq_spiConfigBits_iff (v : Byte) (k : SpiCtrl) :
    v.extractLsb' 1 5 = spiConfigBits k ↔ v.getLsbD 1 = k.mstr ∧ v.getLsbD 2 = k.dord ∧ v.getLsbD 3 = k.cpol ∧
      v.getLsbD 4 = k.cpha ∧ v.getLsbD 5 = k.buf := by
  obtain ⟨mstr, dord, cpol, cpha, buf⟩ := getLsbD_spiConfigBits k
  have bits : ∀ p : Nat → Prop, (∀ i < 5, p i) ↔ p 0 ∧ p 1 ∧ p 2 ∧ p 3 ∧ p 4 := fun p => by
    simp only [Nat.forall_lt_succ_right, Nat.not_lt_zero, false_implies, forall_const, true_and, and_assoc]
  rw [BitVec.eq_of_getLsbD_eq_iff, bits, mstr, dord, cpol, cpha, buf]
  simp

/-- A repeated configuration, stored, is the configuration there. -/
theorem config_same {v : Byte} {k : SpiCtrl} (same : v.extractLsb' 1 5 = spiConfigBits k) :
    { k with mstr := v.getLsbD 1, dord := v.getLsbD 2, cpol := v.getLsbD 3, cpha := v.getLsbD 4,
             buf := v.getLsbD 5 } = k := by
  obtain ⟨mstr, dord, cpol, cpha, buf⟩ := (extractLsb'_eq_spiConfigBits_iff v k).1 same
  rw [mstr, dord, cpol, cpha, buf]

/-- The configuration part: the five bits are taken with SPE = 0, and a change with SPE = 1 sets CFGERR (R118). -/
theorem spiCtrlConfig_eq (v : Byte) (s : State) :
    spiCtrlConfig v s = s.onSpi fun p => { p with
      ctrl := if p.ctrl.spe then p.ctrl
        else { p.ctrl with mstr := v.getLsbD 1, dord := v.getLsbD 2, cpol := v.getLsbD 3, cpha := v.getLsbD 4,
                           buf := v.getLsbD 5 }
      flags := { p.flags with
        cfgerr := p.flags.cfgerr || decide (p.ctrl.spe = true ∧ ¬v.extractLsb' 1 5 = spiConfigBits p.ctrl) } } := by
  unfold spiCtrlConfig setSpiCfgerr State.onSpi
  by_cases same : v.extractLsb' 1 5 = spiConfigBits s.spi.ctrl
  · simp only [config_same same, ite_self]
    simp [same]
  · cases locked : s.spi.ctrl.spe <;> simp [same, locked]

/-- The enable: SPE is taken while the master rests, and a change while it is busy sets CFGERR (R118). -/
theorem spiCtrlEnable_eq (v : Byte) (s : State) :
    spiCtrlEnable v s = s.onSpi fun p => { p with
      ctrl := { p.ctrl with spe := if p.busy then p.ctrl.spe else v.getLsbD 0 }
      flags := { p.flags with
        cfgerr := p.flags.cfgerr || decide (v.getLsbD 0 ≠ p.ctrl.spe ∧ p.busy = true) } } := by
  unfold spiCtrlEnable setSpiCfgerr State.onSpi
  generalize v.getLsbD 0 = enable
  by_cases same : enable = s.spi.ctrl.spe
  · simp [same]
  · cases busy : s.spi.busy <;> simp [same, busy]

/-- SPI_CTRL after a write of `v`: a busy master keeps SPE, an enabled one its configuration (R118). -/
def ctrlAfter (v : Byte) (p : Spi) : SpiCtrl where
  spe := if p.busy then p.ctrl.spe else v.getLsbD 0
  mstr := if p.ctrl.spe then p.ctrl.mstr else v.getLsbD 1
  dord := if p.ctrl.spe then p.ctrl.dord else v.getLsbD 2
  cpol := if p.ctrl.spe then p.ctrl.cpol else v.getLsbD 3
  cpha := if p.ctrl.spe then p.ctrl.cpha else v.getLsbD 4
  buf := if p.ctrl.spe then p.ctrl.buf else v.getLsbD 5
  spie := v.getLsbD 6

/-- The master after a write of `v` to SPI_CTRL; an ignored change sets CFGERR (R118). -/
def afterCtrlWrite (v : Byte) (p : Spi) : Spi := { p with
  ctrl := ctrlAfter v p
  flags := { p.flags with
    cfgerr := p.flags.cfgerr || decide ((p.ctrl.spe = true ∧ ¬v.extractLsb' 1 5 = spiConfigBits p.ctrl) ∨
      (v.getLsbD 0 ≠ p.ctrl.spe ∧ p.busy = true)) } }

/-- The two parts and SPIE are one update of the master; the slave role is refused on what it leaves (R118, R111). -/
theorem spiCtrlWrite_eq (v : Byte) (s : State) :
    spiCtrlWrite v s =
      if (ctrlAfter v s.spi).spe = true ∧ (ctrlAfter v s.spi).mstr = false then
        refuse .spiSlave (s.onSpi (afterCtrlWrite v))
      else s.onSpi (afterCtrlWrite v) := by
  have written : ((spiCtrlEnable v (spiCtrlConfig v s)).onSpi fun p =>
      { p with ctrl := { p.ctrl with spie := v.getLsbD 6 } }) = s.onSpi (afterCtrlWrite v) := by
    rw [spiCtrlEnable_eq, spiCtrlConfig_eq]
    cases locked : s.spi.ctrl.spe <;>
      simp [State.onSpi, afterCtrlWrite, ctrlAfter, locked, Spi.busy, Bool.or_assoc]
  unfold spiCtrlWrite
  simp only [written]
  rfl

/-- Settles O36: the register after the write is `ctrlAfter`, and the slave role is refused on what it leaves. -/
theorem spiCtrlWriteEffect : Obligations.SpiCtrlWriteEffect := by
  intro v s old cfgSame busy new
  have ctrl : ctrlAfter v s.spi = new := by
    simp only [ctrlAfter, spi_busy_iff]
    rfl
  have written : afterCtrlWrite v s.spi = { s.spi with
      ctrl := new
      flags := { s.spi.flags with
        cfgerr := s.spi.flags.cfgerr || decide ((old.spe = true ∧ ¬cfgSame) ∨ (v.getLsbD 0 ≠ old.spe ∧ busy)) } } := by
    simp only [afterCtrlWrite, ctrl, extractLsb'_eq_spiConfigBits_iff, spi_busy_iff]
    rfl
  refine ⟨decodeHreq_write 0x12 v, spiCtrlWrite v s, rfl, ?_⟩
  rw [spiCtrlWrite_eq, ctrl, ← written]
  by_cases slave : new.spe = true ∧ new.mstr = false
  · rw [if_pos slave]
    exact ⟨refuse_eq _ _, fun _ r => mem_refuse_iff _ r _, fun master => absurd slave master⟩
  · rw [if_neg slave]
    exact ⟨rfl, fun isSlave => absurd isSlave slave, fun _ => rfl⟩

/-! ### SPI_CLKSEL and SPI_SS (R120, R122) -/

theorem spiClkselWrite_same {v : Byte} {s : State} (same : (v.extractLsb' 0 3).toNat = s.spi.clksel.val) :
    spiClkselWrite v s = s := if_pos same

/-- A change with SPE = 1, or to the reserved code, is ignored with CFGERR (R120). -/
theorem spiClkselWrite_ignored {v : Byte} {s : State} (change : (v.extractLsb' 0 3).toNat ≠ s.spi.clksel.val)
    (ignored : s.spi.ctrl.spe = true ∨ (v.extractLsb' 0 3).toNat = 7) : spiClkselWrite v s = setSpiCfgerr s := by
  rw [spiClkselWrite, if_neg change]
  rcases ignored with locked | reserved
  · rw [if_pos locked]
  · rw [dif_neg (by omega), ite_self]

/-- A code of the table is taken with SPE = 0 (R120). -/
theorem spiClkselWrite_taken {v : Byte} {s : State} (unlocked : s.spi.ctrl.spe = false) (k : Fin 7)
    (code : (v.extractLsb' 0 3).toNat = k.val) : spiClkselWrite v s = s.onSpi fun p => { p with clksel := k } := by
  by_cases same : (v.extractLsb' 0 3).toNat = s.spi.clksel.val
  · have present : k = s.spi.clksel := Fin.ext (code.symm.trans same)
    rw [spiClkselWrite_same same, present]
    rfl
  · have row : (⟨(v.extractLsb' 0 3).toNat, code ▸ k.isLt⟩ : Fin 7) = k := Fin.ext code
    simp only [spiClkselWrite, if_neg same, unlocked, Bool.false_eq_true, if_false, dif_pos (code ▸ k.isLt), row]

/-- Settles O37: SPI_CLKSEL by its three cases, SPI_SS by the order of its rule. -/
theorem spiSelectWriteEffects : Obligations.SpiSelectWriteEffects := by
  intro v s c flagged
  refine ⟨decodeHreq_write 0x13 v, decodeHreq_write 0x14 v, fun same => congrArg Host.Outcome.next (spiClkselWrite_same same),
    fun change ignored => congrArg Host.Outcome.next (spiClkselWrite_ignored change ignored),
    fun unlocked k code => congrArg Host.Outcome.next (spiClkselWrite_taken unlocked k code),
    congrArg Host.Outcome.next ?select⟩
  case select =>
    simp only [spiSsWrite, spi_busy_iff]
    rfl

end Sys2Proof.Proofs
end

section
/-!
PROOFS. HOST's accesses while a transfer or a drain runs (R130): what each may do to a busy master (`BusyAccess`), and what
outlasts it.
-/

namespace Sys2Proof.Proofs

open Sys2Proof.Laws Sys2Proof.Machine Sys2Proof.Machine.Laws

/-! ### What an access may do to a busy master -/

/-- What an access may do to a busy master: set or clear flags, write SPIE, and start a drain. -/
inductive BusyAccess (p : Spi) : Spi → Prop
  | mk (flags : SpiFlags) (spie : Bool) (drain : Drain) (kept : p.drain = .active → drain = .active) :
      BusyAccess p { p with ctrl := { p.ctrl with spie := spie }, flags := flags, drain := drain }

theorem BusyAccess.flags (p : Spi) (f : SpiFlags) : BusyAccess p { p with flags := f } := .mk f p.ctrl.spie p.drain id

theorem BusyAccess.refl (p : Spi) : BusyAccess p p := .flags p p.flags

theorem BusyAccess.of_eq {p q : Spi} (h : q = p) : BusyAccess p q := h ▸ .refl p

/-- The start of a drain leaves AUTO, which is on (R122). -/
theorem BusyAccess.go {p : Spi} (on : p.auto = true) : BusyAccess p { p with drain := .active, auto := true } := by
  rw [← on]
  exact .mk p.flags p.ctrl.spie .active fun _ => rfl

/-- The shifter's byte, the drain, AUTO and the fields that chip select looks at outlast it. -/
theorem BusyAccess.keeps {p q : Spi} (h : BusyAccess p q) :
    q.sh = p.sh ∧ (p.drain = .active → q.drain = .active) ∧ q.auto = p.auto ∧ q.ctrl.spe = p.ctrl.spe ∧
    q.ctrl.mstr = p.ctrl.mstr ∧ q.ssidx = p.ssidx ∧ q.hold = p.hold := by
  cases h with
  | mk flags spie drain kept => exact ⟨rfl, kept, rfl, rfl, rfl, rfl, rfl⟩

/-- A read of a DATA register reaches the master by its flag RXUF alone (R114). -/
theorem readData_busyAccess (q : RingId) {uf : State → State} {s : State} (h : BusyAccess s.spi (uf s).spi) :
    BusyAccess s.spi (readData q uf s).spi := by
  rw [readData_eq]
  split
  · exact h
  · exact .of_eq (setRing_spi s q _)

/-- A write into a transmit ring reaches the master by its flag TXOVF alone (R112). -/
theorem writeData_busyAccess (q : RingId) {ovf : State → State} (v : Byte) {s : State} (h : BusyAccess s.spi (ovf s).spi) :
    BusyAccess s.spi (writeData q ovf v s).spi := by
  rw [writeData_eq]
  split
  · exact h
  · exact .of_eq (setRing_spi s q _)

theorem uartCtrlWrite_spi (v : Byte) (s : State) : (uartCtrlWrite v s).spi = s.spi := by
  rw [uartCtrlWrite, uartCtrlConfig_eq]
  split
  · rfl
  · split <;> rfl

theorem uartFrameWrite_spi (v : Byte) (s : State) : (uartFrameWrite v s).spi = s.spi := by
  unfold uartFrameWrite
  split
  · split <;> rfl
  · split <;> rfl

theorem uartBaudWrite_spi (v : Byte) (s : State) : (uartBaudWrite v s).spi = s.spi := by
  unfold uartBaudWrite
  simp only
  split
  · split <;> rfl
  · split
    · split <;> rfl
    · rfl

theorem uartCmdWrite_spi (v : Byte) (s : State) : (uartCmdWrite v s).spi = s.spi := by rw [uartCmdWrite_eq]

/-- The selected line is locked while the master is busy (R122). -/
theorem spiSsWrite_busy {s : State} (busy : s.spi.busy = true) (v : Byte) : BusyAccess s.spi (spiSsWrite v s).spi := by
  unfold spiSsWrite
  by_cases same : v.getLsbD 7 = s.spi.hold ∧ v.extractLsb' 0 3 = s.spi.ssidx
  · rw [if_pos same]
    exact .refl _
  · rw [if_neg same, if_pos busy]
    exact .flags _ _

section

variable {s : State} (ok : SpiOk s) (busy : s.spi.busy = true)

include ok busy

/-- A write of SPI_DATA finds a ring to queue its byte in, or a shifter that is busy (R112, R113): a drain runs in buffered
mode. -/
theorem spiDataWrite_busy (v : Byte) : BusyAccess s.spi (spiDataWrite v s).spi := by
  unfold spiDataWrite
  split
  · exact writeData_busyAccess .stx v (.flags _ _)
  · next unbuffered =>
    have shifting : s.spi.sh ≠ .idle := ((spi_busy_iff _).1 busy).resolve_right fun drain =>
      unbuffered (ok.drain_buffered drain)
    rw [if_pos (ok.busy_enabled busy), spiLoad, if_neg shifting]
    exact .flags _ _

/-- A write of SPI_CTRL may change SPIE alone: a busy master is enabled, so SPE and the configuration are locked (R118). -/
theorem spiCtrlWrite_busy (v : Byte) : BusyAccess s.spi (spiCtrlWrite v s).spi := by
  have locked : ctrlAfter v s.spi = { s.spi.ctrl with spie := v.getLsbD 6 } := by
    simp [ctrlAfter, busy, ok.busy_enabled busy]
  have written : (spiCtrlWrite v s).spi = afterCtrlWrite v s.spi := by
    rw [spiCtrlWrite_eq]
    split
    · exact refuse_spi _ _
    · rfl
  rw [written, afterCtrlWrite, locked]
  exact .mk _ _ _ id

/-- The clock is locked while the master is enabled (R120). -/
theorem spiClkselWrite_busy (v : Byte) : BusyAccess s.spi (spiClkselWrite v s).spi := by
  by_cases same : (v.extractLsb' 0 3).toNat = s.spi.clksel.val
  · rw [spiClkselWrite_same same]
    exact .refl _
  · rw [spiClkselWrite_ignored same (.inl (ok.busy_enabled busy))]
    exact .flags _ _

/-- GO starts a drain, or changes nothing but CFGERR (R127). -/
theorem spiCmdWrite_busy (v : Byte) : BusyAccess s.spi (spiCmdWrite v s).spi := by
  have go : ∀ t : State, t.spi = s.spi → BusyAccess s.spi (spiGo t).spi := fun t same => by
    rw [spiGo_eq, same]
    simp only
    split
    · exact .flags _ _
    · split
      · exact .refl _
      · exact .go (ok.auto_eq.trans busy)
  rw [spiCmdWrite_eq]
  simp only
  split
  · exact go _ rfl
  · exact .refl _

/-- Every access of the register window does to a busy master what `BusyAccess` allows. -/
theorem exec_access_busy {i : Instr} (access : isAccess i = true) :
    ∃ t, exec i s = .next t ∧ BusyAccess s.spi t.spi := by
  cases i with
  | rdUartData => exact ⟨_, rfl, readData_busyAccess .urx (.refl _)⟩
  | wrUartData v => exact ⟨_, rfl, writeData_busyAccess .utx v (.refl _)⟩
  | wrUartCtrl v => exact ⟨_, rfl, .of_eq (uartCtrlWrite_spi v s)⟩
  | wrUartFrame v => exact ⟨_, rfl, .of_eq (uartFrameWrite_spi v s)⟩
  | wrUartBaud v => exact ⟨_, rfl, .of_eq (uartBaudWrite_spi v s)⟩
  | wrUartCmd v => exact ⟨_, rfl, .of_eq (uartCmdWrite_spi v s)⟩
  | rdSpiData => exact ⟨_, rfl, readData_busyAccess .srx (.flags _ _)⟩
  | wrSpiData v => exact ⟨_, rfl, spiDataWrite_busy ok busy v⟩
  | wrSpiStatus v => exact ⟨_, rfl, .flags _ _⟩
  | wrSpiCtrl v => exact ⟨_, rfl, spiCtrlWrite_busy ok busy v⟩
  | wrSpiClksel v => exact ⟨_, rfl, spiClkselWrite_busy ok busy v⟩
  | wrSpiSs v => exact ⟨_, rfl, spiSsWrite_busy busy v⟩
  | wrSpiCmd v => exact ⟨_, rfl, spiCmdWrite_busy ok busy v⟩
  | rdUartStatus | rdUartCtrl | rdUartFrame | rdUartBaud | rdUartDivl | rdUartDivh | rdUartRxcnt | rdUartTxcnt | rdUartErr
  | rdUartCmd | rdSpiStatus | rdSpiCtrl | rdSpiClksel | rdSpiSs | rdSpiRxcnt | rdSpiTxcnt | rdSpiCmd | rdReserved _
  | wrUartStatus _ | wrUartErr _ | wrUartDivl _ | wrUartDivh _ | wrUartRxcnt _ | wrUartTxcnt _ | wrSpiRxcnt _
  | wrSpiTxcnt _ | wrReserved _ _ => exact ⟨_, rfl, .refl _⟩
  | _ => cases access

end

/-! ### The statement -/

/-- Settles O38: `BusyAccess` keeps the shifter's byte, the drain, AUTO and what chip select looks at. -/
theorem noHostAccessStopsATransfer : Obligations.NoHostAccessStopsATransfer := by
  intro i s t access ok busy answer
  obtain ⟨u, answers, kept⟩ := exec_access_busy ok busy access
  obtain rfl : u = t := Host.Outcome.next.inj (answers.symm.trans answer)
  obtain ⟨sh, drain, auto_eq, spe, mstr, ssidx, hold⟩ := kept.keeps
  refine ⟨fun b shifting => sh.trans shifting, drain, auto_eq.trans (ok.auto_eq.trans busy), fun k => ?_⟩
  simp only [cs, spe, mstr, ssidx, hold, auto_eq]

end Sys2Proof.Proofs
end

section
/-!
PROOFS. The SPI master's engine steps (R128, R129): what a completion step does with the slave's answer, and the rounds of
completion and drain steps that end a drain.
-/

namespace Sys2Proof.Proofs

open Sys2Proof.Machine Sys2Proof.Machine.Laws

/-! ### The completion step (R129) -/

theorem spiDiv_eq (k : Fin 7) : spiDiv k = 2 ^ (k.val + 1) := by
  revert k
  decide

/-- The completion step of a busy shifter: the event, the master's registers, the received byte in SRX, and of the slave's
answer the SFP, the records and the draws (R129). -/
theorem spiComplete_busy {s : State} {b : Byte} (busy : s.spi.sh = .busy b) :
    spiComplete s = { s with
      trace := s.trace ++ [spiXferEvent s.spi b (spiExchange b s).1],
      spi := s.spi.byteDone,
      srx := (s.srx.push (spiExchange b s).1).2,
      sfp := (spiExchange b s).2.sfp,
      faults := (spiExchange b s).2.faults,
      refusals := (spiExchange b s).2.refusals,
      draws := (spiExchange b s).2.draws } := by
  have answer := (sfpOnly_spiExchange b s).1
  unfold spiComplete
  simp only [busy]
  generalize spiExchange b s = r at answer
  obtain ⟨miso, u⟩ := r
  simp only at answer ⊢
  rw [answer]
  rfl

/-- The SFP answers on its own line (R129). -/
theorem spiExchange_own {s : State} (own : s.spi.ssidx.toNat = s.cfg.sfpSs) (b : Byte) : spiExchange b s = sfpSlot b s :=
  if_pos own

/-- On any other line the answer is free (R129). -/
theorem spiExchange_other {s : State} (other : s.spi.ssidx.toNat ≠ s.cfg.sfpSs) (b : Byte) : spiExchange b s = draw s :=
  if_neg other

/-- Settles O39: the step as `spiComplete_busy` says, with the slave's answer by its line. -/
theorem spiCompletionEffect : Obligations.SpiCompletionEffect := by
  intro s b busy
  refine ⟨(spiExchange b s).1, spiComplete s, rfl, ?_⟩
  rw [spiComplete_busy busy]
  refine ⟨?event, rfl, push_snd _ _, fun own => ?_, fun other => ?_, rfl⟩
  case event => rw [spiXferEvent, spiDiv_eq]
  · rw [spiExchange_own own]
    exact ⟨rfl, rfl, rfl, rfl⟩
  · rw [spiExchange_other other]
    exact ⟨rfl, rfl, rfl⟩

/-! ### The rounds of a drain (R128, R193) -/

/-- After a completion step, enabled or not, the shifter is idle; the drain, STX and the moves to come stay (R129). -/
theorem spiComplete_leaves (s : State) :
    (spiComplete s).spi.sh = .idle ∧ (spiComplete s).spi.drain = s.spi.drain ∧ (spiComplete s).stx = s.stx ∧
    (spiComplete s).sched = s.sched := by
  cases shifter : s.spi.sh with
  | idle =>
    have stays : spiComplete s = s := by rw [spiComplete, shifter]
    rw [stays]
    exact ⟨shifter, rfl, rfl, rfl⟩
  | busy b =>
    rw [spiComplete_busy shifter]
    exact ⟨rfl, rfl, rfl, rfl⟩

/-- A run goes on from the state its first step answers. -/
theorem run_succ {s t : State} (first : step s = .next t) (k : Nat) :
    Host.Core.run Sys2Proof.core (k + 1) s = Host.Core.run Sys2Proof.core k t := by
  have coreStep : Sys2Proof.core.step s = .next t := first
  simp only [Host.Core.run, coreStep]

/-- The drain is over: the master rests, STX is empty, and AUTO no longer asserts the line. -/
structure Drained (s : State) : Prop where
  rest : s.spi.busy = false
  empty : s.stx.count = 0
  auto_off : s.spi.auto = false

/-- The step of a completion move leaves the shifter idle, and the drain and STX as they were. -/
theorem step_spiComplete {s : State} {rest : List Move} (sched : s.sched = .spiComplete :: rest) :
    ∃ t, step s = .next t ∧ t.sched = rest ∧ t.spi.sh = .idle ∧ t.spi.drain = s.spi.drain ∧ t.stx = s.stx := by
  obtain ⟨idle, drain, stx, moves⟩ := spiComplete_leaves { s with sched := rest }
  exact ⟨_, step_move sched, moves, idle, drain, stx⟩

/-- The step of a drain move, enabled: the drain ends where STX is empty, and else goes on with one byte less (R128). -/
theorem step_spiDrain {s : State} {rest : List Move} (sched : s.sched = .spiDrain :: rest)
    (draining : s.spi.drain = .active) (idle : s.spi.sh = .idle) :
    ∃ t, step s = .next t ∧ t.sched = rest ∧ (s.stx.count = 0 → Drained t) ∧
      (s.stx.count ≠ 0 → t.spi.drain = .active ∧ t.stx.count = s.stx.count - 1) := by
  have moved := (spiDrain_eq { s with sched := rest }).trans (if_pos ⟨draining, idle⟩)
  refine ⟨endStep (spiDrain { s with sched := rest }), step_move sched, ?_⟩
  rw [moved]
  by_cases empty : s.stx.count = 0
  · rw [if_pos empty]
    exact ⟨rfl, fun _ => ⟨(busy_eq_false_iff _).2 ⟨idle, rfl⟩, empty, rfl⟩, fun queued => absurd empty queued⟩
  · rw [if_neg empty]
    exact ⟨rfl, fun isEmpty => absurd isEmpty empty, fun _ => ⟨draining, rfl⟩⟩

/-- One round in a drain: the completion move frees the shifter, and the drain move ends the drain or loads the next byte. -/
theorem drain_round {s : State} {rest : List Move} (draining : s.spi.drain = .active)
    (sched : s.sched = .spiComplete :: .spiDrain :: rest) :
    ∃ t, (∀ k, Host.Core.run Sys2Proof.core (k + 2) s = Host.Core.run Sys2Proof.core k t) ∧ t.sched = rest ∧
      (s.stx.count = 0 → Drained t) ∧
      (s.stx.count ≠ 0 → t.spi.drain = .active ∧ t.stx.count = s.stx.count - 1) := by
  obtain ⟨u, first, moves, idle, drain, stx⟩ := step_spiComplete sched
  obtain ⟨t, second, round⟩ := step_spiDrain moves (drain.trans draining) idle
  rw [stx] at round
  exact ⟨t, fun k => (run_succ first _).trans (run_succ second k), round⟩

/-- A drain with `k` bytes queued ends within `k + 1` rounds. -/
theorem drain_rounds (k : Nat) {s : State} {rest : List Move} (queued : s.stx.count = k) (draining : s.spi.drain = .active)
    (sched : s.sched = (List.replicate (k + 1) [Move.spiComplete, .spiDrain]).flatten ++ rest) :
    ∃ t, Host.Core.run Sys2Proof.core (2 * (k + 1)) s = .next t ∧ t.sched = rest ∧ Drained t := by
  induction k generalizing s with
  | zero =>
    obtain ⟨t, run, moves, ended, -⟩ := drain_round draining sched
    exact ⟨t, run 0, moves, ended queued⟩
  | succ k ih =>
    obtain ⟨t, run, moves, -, goesOn⟩ := drain_round draining sched
    obtain ⟨drain, count⟩ := goesOn (by omega)
    obtain ⟨w, ran, ended⟩ := ih (by omega) drain moves
    exact ⟨w, (run (2 * (k + 1))).trans ran, ended⟩

/-- Settles O40, by induction on the number of queued bytes (`drain_rounds`). -/
theorem drainRunsToItsEnd : Obligations.DrainRunsToItsEnd := by
  intro s rest _ draining sched
  obtain ⟨t, run, moves, drained⟩ := drain_rounds s.stx.count rfl draining sched
  exact ⟨t, run, moves, drained.rest, drained.empty, drained.auto_off⟩

end Sys2Proof.Proofs
end

section
/-!
PROOFS. The SFP's line and its settling (R131 to R133, R166 to R169), and the socket commands as NET takes them (R155 to R165).
-/

namespace Sys2Proof.Proofs

open Sys2Proof.Laws Sys2Proof.Machine Sys2Proof.Machine.Laws

/-! ### The end of every step (R131) -/

/-- The SFP's look at level `c`: CSPREV becomes the level, a rising edge opens a frame, a falling one ends it (R131). -/
theorem edge_eq (x : Sfp) (c : Bool) : x.edge c = { x with
    csPrev := c
    phase := if c = true ∧ x.csPrev = false then .addrHi
      else if c = false ∧ x.csPrev = true then .idle else x.phase
    n := if c = true ∧ x.csPrev = false then 0 else x.n } := by
  unfold Sfp.edge
  cases c <;> cases x.csPrev <;> rfl

/-- Settles O41: a step is its move and then `endStep`, which is one edge of the line. -/
theorem chipSelectEdgesFrameTheBytes : Obligations.ChipSelectEdgesFrameTheBytes := by
  intro s m rest sched
  obtain ⟨u, moved, -⟩ := runMove_answers m { s with sched := rest }
  refine ⟨u, moved, ?_⟩
  rw [step_move sched, moved, finish, endStep, State.onSfp, edge_eq]
  rfl

/-! ### Byte slots that fault (R132, R133) -/

theorem sfpSlot_settling {s : State} (settling : s.sfp.resetting = true) (b : Byte) :
    sfpSlot b s = draw (raiseFault .sfpFrameDuringReset s) := by
  rw [sfpSlot, if_pos settling]

theorem sfpSlot_wrongLink {s : State} (settled : s.sfp.resetting = false) (wrong : linkOk s = false) (b : Byte) :
    sfpSlot b s = draw (raiseFault .sfpLinkMode s) := by
  rw [sfpSlot, settled, wrong, if_neg Bool.false_ne_true, if_neg Bool.false_ne_true]

theorem linkOk_iff (s : State) : linkOk s = true ↔ s.spi.ctrl.dord = false ∧ s.spi.ctrl.cpol = s.spi.ctrl.cpha := by
  simp [linkOk]

/-- Settles O42: the settling is looked at first, then the link mode, and either fault ends the slot. -/
theorem slotFaultsLeaveTheSfp : Obligations.SlotFaultsLeaveTheSfp := by
  intro b s
  refine ⟨fun settling => ?_, fun settled wrong => ?_⟩
  · rw [sfpSlot_settling settling]
    exact ⟨raiseFault_sfp _ s, fun f => mem_raiseFault_iff _ f s⟩
  · rw [sfpSlot_wrongLink settled (Bool.eq_false_iff.mpr fun ok => wrong ((linkOk_iff s).1 ok))]
    exact ⟨raiseFault_sfp _ s, fun f => mem_raiseFault_iff _ f s⟩

/-! ### The hard reset and the settle step (R167 to R169) -/

/-- Settles O59: the meaning is `hardReset`, and every socket of the reset registers is `socketReset`. -/
theorem hardResetResetsTheSfp : Obligations.HardResetResetsTheSfp := by
  intro s
  have sockets (n : SockIx) : (hardReset s).sock n = socketReset := by
    simp [State.sock, hardReset, sfpRegsReset, Vector.get]
  refine ⟨hardReset s, rfl, rfl, rfl, rfl, rfl, rfl, rfl, rfl, fun n => ?_⟩
  rw [sockets]
  exact ⟨rfl, rfl, rfl, rfl, rfl, rfl, rfl, fun _ => ⟨rfl, rfl⟩⟩

/-- The SFP once it has settled: RESETTING and RST are cleared (R168). -/
def afterSettle (x : Sfp) : Sfp :=
  { x with resetting := false, regs := { x.regs with mr := x.regs.mr &&& 0x7F } }

theorem sfpSettle_settling {s : State} (settling : s.sfp.resetting = true) : sfpSettle s = s.onSfp afterSettle := by
  rw [sfpSettle, if_pos settling]
  rfl

theorem sfpSettle_settled {s : State} (done : s.sfp.resetting = false) : sfpSettle s = s := by
  rw [sfpSettle, done, if_neg Bool.false_ne_true]

theorem getLsbD_clearRst (mr : Byte) :
    (mr &&& 0x7F).getLsbD 7 = false ∧ ∀ i, i < 7 → (mr &&& 0x7F).getLsbD i = mr.getLsbD i := by
  refine ⟨by simp, fun i hi => ?_⟩
  interval_cases i <;> simp

theorem exec_delaySettle_settled {s : State} (done : s.sfp.resetting = false) : exec .pinDelaySettle s = .next s :=
  congrArg Host.Outcome.next (by rw [done, if_neg Bool.false_ne_true])

theorem exec_delaySettle_settling {s : State} (settling : s.sfp.resetting = true) :
    exec .pinDelaySettle s = .next { s with hostq := delaySettleAccess :: s.hostq } :=
  congrArg Host.Outcome.next (by rw [settling, if_pos rfl])

/-- A step in which HOST issues DELAY_SETTLE runs that operation (R59). -/
theorem step_delaySettle {s : State} {q : List HostAccess} {rest : List Move} (next : s.hostq = ⟨8, pinWord 1⟩ :: q)
    (sched : s.sched = .host :: rest) : step s = finish (exec .pinDelaySettle { s with hostq := q, sched := rest }) := by
  rw [step_host sched next, runAccess_accepted (.inr rfl), decodeHreq_pin]
  rfl

/-- The SFP's look at its line leaves the registers, the address, the control byte and the settling (R131). -/
theorem endStep_sfp (s : State) : (endStep s).sfp.regs = s.sfp.regs ∧ (endStep s).sfp.resetting = s.sfp.resetting ∧
    (endStep s).sfp.addr = s.sfp.addr ∧ (endStep s).sfp.ctl = s.sfp.ctl := by
  rw [endStep, onSfp_sfp, edge_eq]
  exact ⟨rfl, rfl, rfl, rfl⟩

/-- A second look at the same level changes nothing (R131). -/
theorem edge_edge (x : Sfp) (c : Bool) : (x.edge c).edge c = x.edge c := by
  rw [edge_eq (x.edge c), edge_csPrev]
  cases c <;> simp [edge_eq]

/-- While the SFP settles, DELAY_SETTLE stays HOST's next request (R169, log 15). -/
theorem step_delaySettle_waits {s : State} {q : List HostAccess} {rest : List Move} (settling : s.sfp.resetting = true)
    (next : s.hostq = ⟨8, pinWord 1⟩ :: q) (sched : s.sched = .host :: rest) :
    step s = .next (endStep { s with sched := rest }) := by
  rw [step_delaySettle next sched, exec_delaySettle_settling (s := { s with hostq := q, sched := rest }) settling,
    delaySettleAccess, ← next]
  rfl

/-- Once the SFP is settled, DELAY_SETTLE completes and does nothing else (R169). -/
theorem step_delaySettle_passes {s : State} {q : List HostAccess} {rest : List Move} (done : s.sfp.resetting = false)
    (next : s.hostq = ⟨8, pinWord 1⟩ :: q) (sched : s.sched = .host :: rest) :
    step s = .next (endStep { s with hostq := q, sched := rest }) := by
  rw [step_delaySettle next sched, exec_delaySettle_settled (s := { s with hostq := q, sched := rest }) done]
  rfl

theorem step_sfpSettle {s : State} {rest : List Move} (settling : s.sfp.resetting = true)
    (sched : s.sched = .sfpSettle :: rest) :
    step s = .next (endStep ({ s with sched := rest }.onSfp afterSettle)) := by
  rw [step_move sched]
  show finish (.next (sfpSettle { s with sched := rest })) = _
  rw [sfpSettle_settling (s := { s with sched := rest }) settling]
  rfl

/-- Settles O60: HOST's first move waits, the settle step settles, and HOST's second move completes. -/
theorem delaySettleWaitsForTheSettleStep : Obligations.DelaySettleWaitsForTheSettleStep := by
  intro s q rest
  have rst := getLsbD_clearRst s.sfp.regs.mr
  refine ⟨⟨sfpSettle s, rfl, sfpSettle_settled, fun settling => ?_⟩, exec_delaySettle_settled,
    fun settling next sched => ?_⟩
  · rw [sfpSettle_settling settling]
    exact ⟨rfl, rst⟩
  · let a := endStep { s with sched := .sfpSettle :: .host :: rest }
    let b := endStep ({ a with sched := .host :: rest }.onSfp afterSettle)
    obtain ⟨regsA, resettingA, addrA, ctlA⟩ := endStep_sfp { s with sched := .sfpSettle :: .host :: rest }
    obtain ⟨regsB, resettingB, addrB, ctlB⟩ := endStep_sfp ({ a with sched := .host :: rest }.onSfp afterSettle)
    have regs : b.sfp.regs = { s.sfp.regs with mr := s.sfp.regs.mr &&& 0x7F } :=
      regsB.trans (congrArg (fun r : SfpRegs => { r with mr := r.mr &&& 0x7F }) regsA)
    have waits : step s = .next a := step_delaySettle_waits settling next sched
    have settles : step a = .next b := step_sfpSettle (resettingA.trans settling) rfl
    have passes := step_delaySettle_passes (s := b) resettingB next rfl
    refine ⟨a, b, _, waits, settles, passes, rfl, resettingA.trans settling, resettingB, ?_, ?_, ?_,
      addrB.trans addrA, ctlB.trans ctlA, rfl, rfl, edge_edge _ _, rfl⟩
    · rw [regs]; exact rst.1
    · rw [regs]; exact rst.2
    · rw [regs]

/-! ### Socket commands (R155 to R165) -/

/-- A command in a status it acts in: the status it sets, CRPEND cleared, and nothing else but the draws taken before. -/
theorem takeCommand_acts {n : SockIx} {f : SockStatus → Option SockStatus} {s : State} {sr : SockStatus} (d : Nat)
    (acts : f (s.sock n).sr = some sr) :
    let t := takeCommand n f { s with draws := d }
    (t.sock n).sr = sr ∧
      t = { s.onSock n (fun k => { k with sr := (t.sock n).sr, crpend := 0 }) with draws := t.draws } := by
  have taken : takeCommand n f { s with draws := d } =
      { s with draws := d }.onSock n fun k => { k with sr := sr, crpend := 0 } := by
    rw [takeCommand, show ({ s with draws := d } : State).sock n = s.sock n from rfl, acts]
  rw [taken]
  refine ⟨by rw [sock_onSock_same], ?_⟩
  rw [sock_onSock_same]
  rfl

/-- A command in any other status: refused, CRPEND cleared, and nothing else but the draws taken before. -/
theorem takeCommand_refused {n : SockIx} {f : SockStatus → Option SockStatus} {s : State} (d : Nat)
    (elsewhere : f (s.sock n).sr = none) :
    let t := takeCommand n f { s with draws := d }
    (∀ r, r ∈ t.refusals ↔ r = .netCmdState ∨ r ∈ s.refusals) ∧
      t = { s.onSock n (fun k => { k with crpend := 0 }) with refusals := t.refusals, draws := t.draws } := by
  have refused : takeCommand n f { s with draws := d } =
      (refuse .netCmdState { s with draws := d }).onSock n fun k => { k with crpend := 0 } := by
    rw [takeCommand, show ({ s with draws := d } : State).sock n = s.sock n from rfl, elsewhere]
  rw [refused]
  refine ⟨fun r => mem_refuse_iff _ r _, ?_⟩
  rw [refuse_eq]
  rfl

theorem openStatus_eq (n : SockIx) (mr : Byte) : openStatus n mr =
    if (mr.extractLsb' 0 4).toNat = 1 then .init else if (mr.extractLsb' 0 4).toNat = 2 then .udp
    else if (mr.extractLsb' 0 4).toNat = 4 ∧ n = 0 then .macraw else .closed := by
  unfold openStatus
  split <;> simp_all

/-- What DISCON draws is which of the two statuses of R159 it sets. -/
theorem disconEffect_cases (c : Bool) :
    (∃ sr, disconEffect c .established = some sr ∧ (sr = .finWait ∨ sr = .closed)) ∧
    (∃ sr, disconEffect c .closeWait = some sr ∧ (sr = .lastAck ∨ sr = .closed)) := by
  cases c <;> exact ⟨⟨_, rfl, by simp⟩, ⟨_, rfl, by simp⟩⟩

theorem carriesData_iff (sr : SockStatus) :
    carriesData sr = true ↔ sr = .established ∨ sr = .closeWait ∨ sr = .udp ∨ sr = .macraw := by
  cases sr <;> decide

/-- Settles O56: each command by what its effect says of the status. -/
theorem commandsTakeTheirEffect : Obligations.CommandsTakeTheirEffect := by
  intro n s takes sr proto
  have acts (i : Instr) (p : SockStatus → Prop) (d : Nat) {f : SockStatus → Option SockStatus} {x : SockStatus}
      (meaning : exec i s = .next (takeCommand n f { s with draws := d })) (effect : f sr = some x) (goal : p x) :
      takes i p := by
    obtain ⟨status, rest⟩ := takeCommand_acts d effect
    exact ⟨_, meaning, status.symm ▸ goal, rest⟩
  refine ⟨acts (.cmdClose n) (· = .closed) s.draws (f := closeEffect) rfl rfl rfl, fun closed => ?_, fun init => ?_,
    fun established => ?_, fun closeWait => ?_, fun data => ?_, fun udp => ?_, fun keep => ?_⟩
  · exact acts (.cmdOpen n) (· = _) s.draws rfl (congrArg (openEffect n _) closed) (openStatus_eq n _)
  · exact ⟨acts (.cmdListen n) (· = .listen) s.draws rfl (congrArg listenEffect init) rfl,
      acts (.cmdConnect n) (· = .synsent) s.draws rfl (congrArg connectEffect init) rfl⟩
  · obtain ⟨x, effect, goal⟩ := (disconEffect_cases (drawChoice s).1).1
    exact acts (.cmdDiscon n) (fun x => x = .finWait ∨ x = .closed) (s.draws + 1) rfl
      ((congrArg (disconEffect _) established).trans effect) goal
  · obtain ⟨x, effect, goal⟩ := (disconEffect_cases (drawChoice s).1).2
    exact acts (.cmdDiscon n) (fun x => x = .lastAck ∨ x = .closed) (s.draws + 1) rfl
      ((congrArg (disconEffect _) closeWait).trans effect) goal
  · have effect : dataEffect sr = some sr := if_pos ((carriesData_iff sr).2 data)
    exact ⟨acts (.cmdSend n) (· = sr) s.draws rfl effect rfl, acts (.cmdRecv n) (· = sr) s.draws rfl effect rfl⟩
  · exact acts (.cmdSendMac n) (· = sr) s.draws rfl (congrArg sendMacEffect udp) udp.symm
  · rcases keep with established | closeWait
    · exact acts (.cmdSendKeep n) (· = sr) s.draws rfl (congrArg sendKeepEffect established) established.symm
    · exact acts (.cmdSendKeep n) (· = sr) s.draws rfl (congrArg sendKeepEffect closeWait) closeWait.symm

/-- The commands' effects say nothing of a status their rules do not list (R156 to R163). -/
theorem effects_elsewhere (n : SockIx) (mr : Byte) (c : Bool) (sr : SockStatus) :
    (sr ≠ .closed → openEffect n mr sr = none) ∧
    (sr ≠ .init → listenEffect sr = none ∧ connectEffect sr = none) ∧
    (sr ∉ [.established, .closeWait] → disconEffect c sr = none ∧ sendKeepEffect sr = none) ∧
    (sr ∉ [.established, .closeWait, .udp, .macraw] → dataEffect sr = none) ∧
    (sr ≠ .udp → sendMacEffect sr = none) := by
  cases sr <;> simp [openEffect, listenEffect, connectEffect, disconEffect, sendKeepEffect, dataEffect, sendMacEffect,
    carriesData]

/-- Settles O57: each command by its effect's silence on the status; 0x00 and a reserved byte by their writes. -/
theorem commandsElsewhereAreRefused : Obligations.CommandsElsewhereAreRefused := by
  intro n c s refused sr
  have refuses (i : Instr) (d : Nat) {f : SockStatus → Option SockStatus}
      (meaning : exec i s = .next (takeCommand n f { s with draws := d })) (elsewhere : f sr = none) : refused i :=
    ⟨_, meaning, takeCommand_refused d elsewhere⟩
  obtain ⟨opens, inits, peers, data, mac⟩ := effects_elsewhere n (s.sock n).mr (drawChoice s).1 sr
  exact ⟨fun h => refuses (.cmdOpen n) s.draws rfl (opens h),
    fun h => ⟨refuses (.cmdListen n) s.draws rfl (inits h).1, refuses (.cmdConnect n) s.draws rfl (inits h).2⟩,
    fun h => ⟨refuses (.cmdDiscon n) (s.draws + 1) rfl (peers h).1, refuses (.cmdSendKeep n) s.draws rfl (peers h).2⟩,
    fun h => ⟨refuses (.cmdSend n) s.draws rfl (data h), refuses (.cmdRecv n) s.draws rfl (data h)⟩,
    fun h => refuses (.cmdSendMac n) s.draws rfl (mac h), rfl,
    fun _ => ⟨_, rfl, refuse_eq .sfpCmdReserved s, fun r => mem_refuse_iff .sfpCmdReserved r s⟩⟩

end Sys2Proof.Proofs
end

section
/-!
PROOFS. NET's steps (R155): each leaves the state as it was but for three fields of the named socket, the refusals and the draws
(`netAfter`).
-/

namespace Sys2Proof.Proofs

open Sys2Proof.Laws Sys2Proof.Machine Sys2Proof.Machine.Laws

/-! ### Socket updates -/

/-- A socket update looks at the present socket alone. -/
theorem onSock_congr {s : State} {n : SockIx} {f g : Socket → Socket} (h : f (s.sock n) = g (s.sock n)) :
    s.onSock n f = s.onSock n g := by
  show ({ s with sfp := (s.onSock n f).sfp } : State) = { s with sfp := (s.onSock n g).sfp }
  rw [sfp_onSock, sfp_onSock, h]

/-- An update that leaves the socket leaves the state. -/
theorem onSock_self {s : State} {n : SockIx} {f : Socket → Socket} (h : f (s.sock n) = s.sock n) : s.onSock n f = s := by
  have put : s.sfp.regs.socks.set n (s.sock n) = s.sfp.regs.socks := Vector.set_getElem_self _
  rw [onSock_congr (g := fun _ => s.sock n) h]
  show ({ s with sfp := (s.onSock n fun _ => s.sock n).sfp } : State) = s
  rw [sfp_onSock, put]

/-! ### What a step of NET leaves -/

/-- The state after a step of NET: the status, the pending command and the receive cells of socket `n`, the refusals and the
draws are given, and the rest is as in `s`. -/
def netAfter (n : SockIx) (sr : SockStatus) (c : Byte) (m : Memory) (r : List Refusal) (d : Nat) (s : State) : State :=
  { s.onSock n (fun k => { k with sr := sr, crpend := c, rxbuf := m }) with refusals := r, draws := d }

theorem netAfter_sock (n : SockIx) (sr : SockStatus) (c : Byte) (m : Memory) (r : List Refusal) (d : Nat) (s : State) :
    (netAfter n sr c m r d s).sock n = { s.sock n with sr := sr, crpend := c, rxbuf := m } :=
  sock_onSock_same s n fun k => { k with sr := sr, crpend := c, rxbuf := m }

theorem netAfter_self (n : SockIx) (s : State) :
    netAfter n (s.sock n).sr (s.sock n).crpend (s.sock n).rxbuf s.refusals s.draws s = s := by
  rw [netAfter, onSock_self rfl]

theorem netAfter_of_onSock {n : SockIx} {s : State} {f : Socket → Socket} {sr : SockStatus} {c : Byte} {m : Memory}
    (r : List Refusal) (d : Nat) (h : f (s.sock n) = { s.sock n with sr := sr, crpend := c, rxbuf := m }) :
    { s.onSock n f with refusals := r, draws := d } = netAfter n sr c m r d s := by
  rw [onSock_congr (g := fun k => { k with sr := sr, crpend := c, rxbuf := m }) h, netAfter]

/-! ### The three steps -/

theorem takeCommand_netAfter (n : SockIx) (f : SockStatus → Option SockStatus) (d : Nat) (s : State) :
    ∃ sr c r d', takeCommand n f { s with draws := d } = netAfter n sr c (s.sock n).rxbuf r d' s := by
  cases effect : f (s.sock n).sr with
  | some sr =>
    obtain ⟨-, acted⟩ := takeCommand_acts d effect
    rw [acted]
    exact ⟨_, _, _, _, netAfter_of_onSock _ _ rfl⟩
  | none =>
    obtain ⟨-, refused⟩ := takeCommand_refused d effect
    rw [refused]
    exact ⟨_, _, _, _, netAfter_of_onSock _ _ rfl⟩

/-- Whatever byte is pending, its meaning changes SR and CRPEND of the socket, the refusals and the draws at most. -/
theorem exec_decodeSncmd_netAfter (n : SockIx) (c : Byte) (s : State) :
    ∃ sr c' r d, exec (decodeSncmd n c) s = .next (netAfter n sr c' (s.sock n).rxbuf r d s) := by
  have unchanged : ∃ sr c' r d, (.next s : Result) = .next (netAfter n sr c' (s.sock n).rxbuf r d s) :=
    ⟨_, _, _, _, congrArg Host.Outcome.next (netAfter_self n s).symm⟩
  have taken (f : SockStatus → Option SockStatus) (d : Nat) : ∃ sr c' r d',
      (.next (takeCommand n f { s with draws := d }) : Result) = .next (netAfter n sr c' (s.sock n).rxbuf r d' s) := by
    obtain ⟨sr, c', r, d', e⟩ := takeCommand_netAfter n f d s
    exact ⟨sr, c', r, d', congrArg _ e⟩
  have reserved : ∃ sr c' r d, (.next (refuseCommand s) : Result) =
      .next (netAfter n sr c' (s.sock n).rxbuf r d s) := by
    have after := netAfter_of_onSock (n := n) (s := s) (f := id) (refuse .sfpCmdReserved s).refusals s.draws rfl
    rw [onSock_self rfl, ← refuse_eq] at after
    exact ⟨_, _, _, _, congrArg Host.Outcome.next after⟩
  unfold decodeSncmd
  split
  case h_1 => exact unchanged
  case h_5 => exact taken _ (s.draws + 1)
  case h_11 => exact reserved
  all_goals exact taken _ s.draws

theorem runTake_netAfter (n : SockIx) (s : State) :
    ∃ sr c r d, runMove (.netTake n) s = .next (netAfter n sr c (s.sock n).rxbuf r d s) := by
  show ∃ sr c r d, runTake n s = _
  unfold runTake
  split
  · exact ⟨_, _, _, _, congrArg Host.Outcome.next (netAfter_self n s).symm⟩
  · exact exec_decodeSncmd_netAfter n _ s

theorem netStatus_netAfter (n : SockIx) (x : SockStatus) (s : State) :
    netStatus n x s = netAfter n
      (if s.sfp.resetting = false ∧ mayBecome (s.sock n).sr x = true then x else (s.sock n).sr)
      (s.sock n).crpend (s.sock n).rxbuf s.refusals s.draws s := by
  unfold netStatus
  split
  · exact netAfter_of_onSock (f := fun k => { k with sr := x }) s.refusals s.draws rfl
  · exact (netAfter_self n s).symm

theorem netRx_netAfter (n : SockIx) (i : Nat) (v : Byte) (s : State) :
    netRx n i v s = netAfter n (s.sock n).sr (s.sock n).crpend
      (if s.sfp.resetting = false ∧ carriesData (s.sock n).sr = true ∧ i < cellsOf (s.sock n).rxsz
        then (s.sock n).rxbuf.write i v else (s.sock n).rxbuf) s.refusals s.draws s := by
  unfold netRx
  split
  · exact netAfter_of_onSock (f := fun k => { k with rxbuf := k.rxbuf.write i v }) s.refusals s.draws rfl
  · exact (netAfter_self n s).symm

/-- The arrows of R155 item 2, written out. -/
theorem mayBecome_iff (a b : SockStatus) : mayBecome a b = true ↔ (a, b) ∈
    ([(.listen, .synrecv), (.listen, .established), (.synrecv, .established), (.synrecv, .closed),
      (.synsent, .established), (.synsent, .closed), (.established, .closeWait), (.established, .closed),
      (.closeWait, .closed), (.finWait, .closing), (.finWait, .timeWait), (.finWait, .closed),
      (.closing, .timeWait), (.closing, .closed), (.timeWait, .closed), (.lastAck, .closed)] :
      List (SockStatus × SockStatus)) := by
  cases a <;> cases b <;> decide

/-- A cell of a buffer in which a write is made under a condition. -/
theorem read_writeIf (p : Prop) [Decidable p] (m : Memory) (i j : Nat) (v : Byte) :
    Memory.read (if p then m.write i v else m) j = if j = i ∧ p then some v else m.read j := by
  by_cases cell : j = i
  · subst cell
    by_cases h : p <;> simp [h]
  · by_cases h : p <;> simp [h, cell, memory_read_write_other]

/-- A step of NET that leaves `netAfter` leaves a state with those fields. -/
theorem netAfter_fields {n : SockIx} {sr : SockStatus} {c : Byte} {m : Memory} {r : List Refusal} {d : Nat} {s t : State}
    (after : t = netAfter n sr c m r d s) :
    t = netAfter n (t.sock n).sr (t.sock n).crpend (t.sock n).rxbuf t.refusals t.draws s ∧
      (t.sock n).sr = sr ∧ (t.sock n).crpend = c ∧ (t.sock n).rxbuf = m ∧ t.refusals = r ∧ t.draws = d := by
  subst after
  rw [netAfter_sock]
  exact ⟨rfl, rfl, rfl, rfl, rfl, rfl⟩

/-- Settles O58: the three steps by what each leaves, and none of them while the SFP settles. -/
theorem netChangesOnlyItsFields : Obligations.NetChangesOnlyItsFields := by
  rintro n m s t - (rfl | ⟨x, rfl⟩ | ⟨i, v, rfl⟩) moved
  · obtain ⟨sr, c, r, d, after⟩ := runTake_netAfter n s
    have settling : s.sfp.resetting = true → t = s := fun settling => by
      have stays : runMove (.netTake n) s = .next s := if_pos settling
      cases stays.symm.trans moved
      rfl
    cases after.symm.trans moved
    obtain ⟨fields, -, -, rxbuf, -, -⟩ := netAfter_fields (rfl : netAfter n sr c (s.sock n).rxbuf r d s = _)
    exact ⟨settling, fields, fun _ => rxbuf, fun h => absurd rfl h, nofun, nofun⟩
  · cases moved
    obtain ⟨fields, sr, crpend, rxbuf, refusals, draws⟩ := netAfter_fields (netStatus_netAfter n x s)
    refine ⟨fun settling => if_neg fun h => ?_, fields, nofun, fun _ => ⟨refusals, draws, crpend⟩,
      fun y h => ?_, nofun⟩
    · rw [settling] at h
      cases h.1
    · cases h
      simp only [← mayBecome_iff]
      exact ⟨rxbuf, sr⟩
  · cases moved
    obtain ⟨fields, sr, crpend, rxbuf, refusals, draws⟩ := netAfter_fields (netRx_netAfter n i v s)
    refine ⟨fun settling => if_neg fun h => ?_, fields, nofun, fun _ => ⟨refusals, draws, crpend⟩,
      nofun, fun j w h => ?_⟩
    · rw [settling] at h
      cases h.1
    · cases h
      refine ⟨sr, fun k => ?_⟩
      rw [rxbuf, read_writeIf]
      simp [carriesData_iff, cellsOf]

end Sys2Proof.Proofs
end

section
/-!
PROOFS. What the parser's latches and the draws have to do with the address space: nothing. A write commutes with a change of
them (`memWrite_relatch`), so the data slots of a write frame leave in the registers and records what its writes leave, one
after the other (`storeAll`, `slots_write`); a read slot answers what `peek` says (`memRead_of_peek`, `slots_read`).
-/

namespace Sys2Proof.Proofs

open Sys2Proof.Laws Sys2Proof.Machine Sys2Proof.Machine.Laws

/-! ### Other latches, other draws -/

/-- `s` with the latches of `x` and `d` draws taken. -/
def relatch (x : Sfp) (d : Nat) (s : State) : State :=
  { s with sfp := { x with regs := s.sfp.regs, resetting := s.sfp.resetting }, draws := d }

theorem relatch_relatch (x y : Sfp) (d e : Nat) (s : State) : relatch x d (relatch y e s) = relatch x d s := rfl

theorem raiseFault_relatch (f : Fault) (x : Sfp) (d : Nat) (s : State) :
    raiseFault f (relatch x d s) = relatch x d (raiseFault f s) :=
  (apply_ite (relatch x d) (f ∈ s.faults) s { s with faults := s.faults ++ [f] }).symm

theorem refuse_relatch (r : Refusal) (x : Sfp) (d : Nat) (s : State) :
    refuse r (relatch x d s) = relatch x d (refuse r s) :=
  (apply_ite (relatch x d) (r ∈ s.refusals) s { s with refusals := s.refusals ++ [r] }).symm

theorem checkTotal_relatch (x : Sfp) (d : Nat) (s : State) :
    checkTotal (relatch x d s) = relatch x d (checkTotal s) := by
  rw [checkTotal, raiseFault_relatch]
  exact (apply_ite (relatch x d) (16 < rxTotal s ∨ 16 < txTotal s) _ s).symm

theorem onSock_relatch (n : SockIx) (f : Socket → Socket) (x : Sfp) (d : Nat) (s : State) :
    (relatch x d s).onSock n f = relatch x d (s.onSock n f) := rfl

theorem relatch_sock (x : Sfp) (d : Nat) (s : State) (n : SockIx) : (relatch x d s).sock n = s.sock n := rfl

theorem commonWrite_relatch (r : CommonReg) (v : Byte) (x : Sfp) (d : Nat) (s : State) :
    commonWrite r v (relatch x d s) = relatch x d (commonWrite r v s) := by
  cases r with
  | mr =>
    show writeMr v _ = relatch x d (writeMr v s)
    unfold writeMr
    split <;> rfl
  | gar i | subr i | shar i | sipr i => rfl

theorem writeCr_relatch (n : SockIx) (c : Byte) (x : Sfp) (d : Nat) (s : State) :
    writeCr n c (relatch x d s) = relatch x d (writeCr n c s) := by
  unfold writeCr
  rw [relatch_sock, raiseFault_relatch, checkTotal_relatch, onSock_relatch, refuseCommand, refuseCommand, refuse_relatch]
  split_ifs <;> rfl

theorem writeRxsz_relatch (n : SockIx) (v : Byte) (x : Sfp) (d : Nat) (s : State) :
    writeRxsz n v (relatch x d s) = relatch x d (writeRxsz n v s) := by
  unfold writeRxsz
  rw [relatch_sock, raiseFault_relatch, onSock_relatch]
  split_ifs <;> rfl

theorem writeTxsz_relatch (n : SockIx) (v : Byte) (x : Sfp) (d : Nat) (s : State) :
    writeTxsz n v (relatch x d s) = relatch x d (writeTxsz n v s) := by
  unfold writeTxsz
  rw [relatch_sock, raiseFault_relatch, onSock_relatch]
  split_ifs <;> rfl

theorem sockWrite_relatch (n : SockIx) (r : SockReg) (v : Byte) (x : Sfp) (d : Nat) (s : State) :
    sockWrite n r v (relatch x d s) = relatch x d (sockWrite n r v s) := by
  cases r with
  | cr => exact writeCr_relatch n v x d s
  | rxsz => exact writeRxsz_relatch n v x d s
  | txsz => exact writeTxsz_relatch n v x d s
  | mr | sr | port0 | port1 => rfl

theorem txBufWrite_relatch (n : SockIx) (off : Word16) (v : Byte) (x : Sfp) (d : Nat) (s : State) :
    txBufWrite n off v (relatch x d s) = relatch x d (txBufWrite n off v s) := by
  unfold txBufWrite
  rw [relatch_sock, checkTotal_relatch, refuse_relatch, onSock_relatch]
  split_ifs <;> rfl

/-- A write looks neither at the latches nor at the draws, and leaves them (R138). -/
theorem memWrite_relatch (b : Bsb) (off : Word16) (v : Byte) (x : Sfp) (d : Nat) (s : State) :
    memWrite b off v (relatch x d s) = relatch x d (memWrite b off v s) := by
  unfold memWrite
  split
  · split
    · split
      · exact commonWrite_relatch _ v x d s
      · exact refuse_relatch _ x d s
    · exact raiseFault_relatch _ x d s
  · split
    · exact sockWrite_relatch _ _ v x d s
    · exact refuse_relatch _ x d s
  · exact txBufWrite_relatch _ off v x d s
  · exact refuse_relatch _ x d s

theorem bufRead_relatch (sz : Byte) (m : Memory) (off : Word16) (x : Sfp) (d : Nat) (s : State) :
    ∃ e, (bufRead sz m off (relatch x d s)).2 = relatch x e (bufRead sz m off s).2 := by
  unfold bufRead
  rw [checkTotal_relatch, refuse_relatch]
  split
  · exact ⟨_, rfl⟩
  · split <;> exact ⟨_, rfl⟩

/-- A read leaves the registers and records it leaves with any other latches and draws (R138). -/
theorem memRead_relatch (b : Bsb) (off : Word16) (x : Sfp) (d : Nat) (s : State) :
    ∃ e, (memRead b off (relatch x d s)).2 = relatch x e (memRead b off s).2 := by
  unfold memRead unmodelledRead
  rw [refuse_relatch, raiseFault_relatch]
  split
  · split
    · split <;> exact ⟨_, rfl⟩
    · exact ⟨_, rfl⟩
  · split <;> exact ⟨_, rfl⟩
  · exact bufRead_relatch _ _ off x d s
  · exact bufRead_relatch _ _ off x d s

/-! ### The writes of a frame, one after the other -/

/-- The bytes of `data` written at the consecutive offsets from `off` on, modulo 2^16 (R136). -/
def storeAll (b : Bsb) : Word16 → List Byte → State → State
  | _, [], s => s
  | off, v :: rest, s => storeAll b (off + 1) rest (memWrite b off v s)

theorem storeAll_relatch (b : Bsb) (off : Word16) (data : List Byte) (x : Sfp) (d : Nat) (s : State) :
    storeAll b off data (relatch x d s) = relatch x d (storeAll b off data s) := by
  induction data generalizing off s with
  | nil => rfl
  | cons v rest ih => rw [storeAll, storeAll, memWrite_relatch, ih]

theorem offset_succ (off : Word16) (k : Nat) : off + 1 + BitVec.ofNat 16 k = off + BitVec.ofNat 16 (k + 1) := by
  rw [BitVec.add_assoc, BitVec.ofNat_add, BitVec.add_comm (BitVec.ofNat 16 k)]
  rfl

/-! ### The data phase (R135 to R137) -/

/-- The parser is in the data phase of a frame, at offset `off` with `n` bytes done. -/
structure InData (s : State) (b : Bsb) (rwb : Bool) (off : Word16) (om : OpMode) (n : Nat) : Prop where
  settled : s.sfp.resetting = false
  link : linkOk s = true
  phase : s.sfp.phase = .data
  addr : s.sfp.addr = off
  ctl : s.sfp.ctl = ctlByte b rwb om
  count : s.sfp.n = n

/-- The header of a frame opens its data phase. -/
theorem opened_inData {s : State} (ready : FrameReady s) (b : Bsb) (rwb : Bool) (off : Word16) (om : OpMode) :
    InData (opened s b rwb off om) b rwb off om 0 :=
  ⟨ready.settled, ready.link, rfl, rfl, rfl, rfl⟩

theorem opened_eq_relatch (s : State) (b : Bsb) (rwb : Bool) (off : Word16) (om : OpMode) :
    opened s b rwb off om = relatch (opened s b rwb off om).sfp (s.draws + 3) s := rfl

/-- A frame that admits more bytes is not at its end (R64, R137). -/
theorem len_ne_of_admits {om : OpMode} {n k : Nat} (admits : om.admits (n + k) = true) (more : 1 < k) :
    om.len ≠ some (n + 1) := by
  intro last
  rw [OpMode.admits, last] at admits
  have : n + k ≤ n + 1 := of_decide_eq_true admits
  omega

/-- A write slot in the data phase: the byte is written, and the counters move on. -/
theorem sfpSlot_write {s : State} {b : Bsb} {off : Word16} {om : OpMode} {n : Nat} (h : InData s b true off om n) (v : Byte) :
    (sfpSlot v s).2 = relatch (memWrite b off v s).sfp.advance ((memWrite b off v s).draws + 1) (memWrite b off v s) := by
  rw [sfpSlot_data v h.settled h.link h.phase, dataSlot_write v (by rw [h.ctl, ctlByte_write]), h.ctl, ctlByte_bsb, h.addr]
  rw [relatch, ← advance_regs, ← advance_resetting]
  rfl

/-- After a write slot that is not the frame's last, the data phase goes on (R137). -/
theorem InData.after_write {s : State} {b : Bsb} {off : Word16} {om : OpMode} {n : Nat} (h : InData s b true off om n)
    {v : Byte} (settled : (memWrite b off v s).sfp.resetting = false) (more : om.len ≠ some (n + 1)) :
    InData (relatch (memWrite b off v s).sfp.advance ((memWrite b off v s).draws + 1) (memWrite b off v s))
      b true (off + 1) om (n + 1) := by
  have latched := memWrite_latches b off v s
  simp only [latches, Prod.mk.injEq] at latched
  obtain ⟨phase, addr, ctl, count, -⟩ := latched
  have notLast : (decodeOm (memWrite b off v s).sfp.ctl).len ≠ some ((memWrite b off v s).sfp.n + 1) := by
    rw [ctl, h.ctl, ctlByte_om, count, h.count]
    exact more
  obtain ⟨phase', count'⟩ := advance_more notLast
  refine ⟨settled, (linkOk_congr (sfpOnly_memWrite b off v s).spi_eq).trans h.link, phase'.trans (phase.trans h.phase),
    (advance_addr _).trans ?_, (advance_ctl _).trans (ctl.trans h.ctl), count'.trans ?_⟩
  · rw [addr, h.addr]
  · rw [count, h.count]

/-- The data slots of a write frame, none of whose writes but the last starts the settling, leave the registers and records
its writes leave. -/
theorem slots_write {data : List Byte} {s : State} {b : Bsb} {off : Word16} {om : OpMode} {n : Nat}
    (h : InData s b true off om n) (admits : om.admits (n + data.length) = true)
    (settled : ∀ k, k < data.length → (storeAll b off (data.take k) s).sfp.resetting = false) :
    ∃ x d, (slots data s).2 = relatch x d (storeAll b off data s) := by
  induction data generalizing s off n with
  | nil => exact ⟨s.sfp, s.draws, rfl⟩
  | cons v rest ih =>
    show ∃ x d, (slots rest (sfpSlot v s).2).2 = relatch x d (storeAll b (off + 1) rest (memWrite b off v s))
    rw [sfpSlot_write h v]
    cases rest with
    | nil => exact ⟨_, _, rfl⟩
    | cons w rest =>
      have more : om.len ≠ some (n + 1) := len_ne_of_admits admits (by simp)
      have settled' (k : Nat) (hk : k < (w :: rest).length) :
          (storeAll b (off + 1) ((w :: rest).take k) (memWrite b off v s)).sfp.resetting = false :=
        settled (k + 1) (Nat.succ_lt_succ hk)
      obtain ⟨x, d, e⟩ := ih (h.after_write (settled' 0 (by simp)) more)
        (by rw [← admits, List.length_cons, List.length_cons, List.length_cons]; congr 1; omega)
        (fun k hk => by rw [storeAll_relatch]; exact settled' k hk)
      exact ⟨x, d, e.trans (by rw [storeAll_relatch, relatch_relatch])⟩

/-! ### What a read returns -/

theorem bufRead_written {sz : Byte} {m : Memory} {off : Word16} {v : Byte} (size : sz ≠ 0)
    (written : m.read (cellIndex off sz) = some v) (s : State) : bufRead sz m off s = (v, checkTotal s) := by
  rw [bufRead, if_neg size, written]

/-- A byte the spec fixes is returned, and nothing changes but what `check_total()` records in a buffer access (R138, R151). -/
theorem memRead_of_peek {s : State} {b : Bsb} {off : Word16} {v : Byte} (fixed : peek s b off = some v) :
    memRead b off s = (v, if 2 ≤ (bsbKind b).toNat then checkTotal s else s) := by
  unfold peek at fixed
  unfold memRead
  split at fixed
  · next kind =>
    rw [kind]
    obtain ⟨common, fixed⟩ : bsbSock b = 0 ∧ (commonReg off).map (commonValue s.sfp.regs) = some v := by simpa using fixed
    obtain ⟨r, named, value⟩ := Option.map_eq_some_iff.1 fixed
    simp [common, named, value]
  · next kind =>
    rw [kind]
    obtain ⟨r, named, value⟩ := Option.map_eq_some_iff.1 fixed
    simp [named, value]
  · next kind =>
    rw [kind]
    obtain ⟨size, written⟩ := Option.ite_none_left_eq_some.1 fixed
    exact bufRead_written size written s
  · next not0 not1 not2 =>
    have kind : (bsbKind b).toNat = 3 := by
      have small := (bsbKind b).isLt
      have : (bsbKind b).toNat ≠ 0 := not0
      have : (bsbKind b).toNat ≠ 1 := not1
      have : (bsbKind b).toNat ≠ 2 := not2
      omega
    rw [kind]
    obtain ⟨size, written⟩ := Option.ite_none_left_eq_some.1 fixed
    exact bufRead_written size written s

/-- A read of a byte the spec fixes returns it, refuses nothing, and records no fault where the totals are not exceeded. -/
theorem memRead_fixed {s : State} {b : Bsb} {off : Word16} {v : Byte} (fixed : peek s b off = some v) :
    (memRead b off s).1 = v ∧ (memRead b off s).2.refusals = s.refusals ∧
      (TotalsOk s → (memRead b off s).2.faults = s.faults) := by
  rw [memRead_of_peek fixed]
  refine ⟨rfl, ?_, fun totals => ?_⟩
  · rw [apply_ite State.refusals, checkTotal_refusals, ite_self]
  · rw [checkTotal_ok totals, ite_self]

/-- `peek` looks at the registers alone. -/
theorem peek_congr {s t : State} (regs : t.sfp.regs = s.sfp.regs) : peek t = peek s := by
  funext b off
  unfold peek State.sock
  rw [regs]

/-- The state after a read slot that changes nothing but the counters. -/
theorem InData.after_read {s : State} {b : Bsb} {off : Word16} {om : OpMode} {n : Nat} (h : InData s b false off om n)
    (more : om.len ≠ some (n + 1)) : InData (s.onSfp Sfp.advance) b false (off + 1) om (n + 1) := by
  have notLast : (decodeOm s.sfp.ctl).len ≠ some (s.sfp.n + 1) := by
    rw [h.ctl, ctlByte_om, h.count]
    exact more
  obtain ⟨phase, count⟩ := advance_more notLast
  refine ⟨(advance_resetting _).trans h.settled, h.link, phase.trans h.phase, (advance_addr _).trans ?_,
    (advance_ctl _).trans h.ctl, count.trans ?_⟩
  · rw [h.addr]
  · rw [h.count]

theorem totalsOk_onSfp_advance {s : State} (h : TotalsOk s) : TotalsOk (s.onSfp Sfp.advance) := by
  have regs : (s.onSfp Sfp.advance).sfp.regs = s.sfp.regs := advance_regs _
  exact ⟨by rw [rxTotal, regs]; exact h.rx, by rw [txTotal, regs]; exact h.tx⟩

theorem sfpSlot_read {s : State} {b : Bsb} {off : Word16} {om : OpMode} {n : Nat} (h : InData s b false off om n) (v : Byte) :
    sfpSlot v s = ((memRead b off s).1, (memRead b off s).2.onSfp Sfp.advance) := by
  rw [sfpSlot_data v h.settled h.link h.phase, dataSlot_read v (by rw [h.ctl, ctlByte_write]), h.ctl, ctlByte_bsb, h.addr]

/-- The data slots of a read frame over bytes the spec fixes return them and change no register and no record. -/
theorem slots_read {data : List Byte} {s : State} {b : Bsb} {off : Word16} {om : OpMode} {n : Nat}
    (h : InData s b false off om n) (admits : om.admits (n + data.length) = true)
    (fixed : ∀ k, k < data.length → (peek s b (off + BitVec.ofNat 16 k)).isSome = true)
    (totals : 2 ≤ (bsbKind b).toNat → TotalsOk s) :
    (slots data s).1.map some = (List.range data.length).map (fun k => peek s b (off + BitVec.ofNat 16 k)) ∧
      (slots data s).2.sfp.regs = s.sfp.regs ∧ (slots data s).2.faults = s.faults ∧
      (slots data s).2.refusals = s.refusals := by
  induction data generalizing s off n with
  | nil => exact ⟨rfl, rfl, rfl, rfl⟩
  | cons w rest ih =>
    obtain ⟨v, first⟩ := Option.isSome_iff_exists.1 (fixed 0 (by simp))
    rw [show BitVec.ofNat 16 0 = 0#16 from rfl, BitVec.add_zero] at first
    have unchecked : (if 2 ≤ (bsbKind b).toNat then checkTotal s else s) = s := by
      split
      · next buffer => exact checkTotal_ok (totals buffer)
      · rfl
    have slot : sfpSlot w s = (v, s.onSfp Sfp.advance) := by
      rw [sfpSlot_read h, memRead_of_peek first, unchecked]
    have peeks : peek (s.onSfp Sfp.advance) = peek s := peek_congr (advance_regs _)
    simp only [slots, slot]
    cases rest with
    | nil => simp [slots, first]
    | cons w' rest =>
      have more : om.len ≠ some (n + 1) := len_ne_of_admits admits (by simp)
      obtain ⟨values, regs, faults, refusals⟩ := ih (h.after_read more)
        (by rw [← admits, List.length_cons, List.length_cons, List.length_cons]; congr 1; omega)
        (fun k hk => by rw [peeks, offset_succ]; exact fixed (k + 1) (Nat.succ_lt_succ hk))
        (fun buffer => totalsOk_onSfp_advance (totals buffer))
      refine ⟨?_, regs.trans (advance_regs _), faults, refusals⟩
      have shift : (fun k => peek (s.onSfp Sfp.advance) b (off + 1 + BitVec.ofNat 16 k)) =
          fun k => peek s b (off + BitVec.ofNat 16 (k + 1)) := by
        funext k
        rw [peeks, offset_succ]
      rw [List.map_cons, values, shift, List.length_cons (a := w), List.range_succ_eq_map, List.map_cons, List.map_map,
        show BitVec.ofNat 16 0 = 0#16 from rfl, BitVec.add_zero, first]
      rfl

end Sys2Proof.Proofs
end

section
/-!
PROOFS. Whole frames (R131, R133): a frame from a ready SFP ends with the line released (`runFrame_leaves`), and holds what its
data slots hold (`writeFrame_holds`, `readByte_holds`, `readFrame_returns`); the identity registers under a write (R147).
-/

namespace Sys2Proof.Proofs

open Sys2Proof.Laws Sys2Proof.Machine Sys2Proof.Machine.Laws

/-! ### What the SFP and the records hold -/

/-- `t` holds in the registers of R35 and R36, the settling and the records what `u` holds. -/
structure Holds (t u : State) : Prop where
  regs : t.sfp.regs = u.sfp.regs
  resetting : t.sfp.resetting = u.sfp.resetting
  faults : t.faults = u.faults
  refusals : t.refusals = u.refusals

theorem Holds.trans {s t u : State} (h : Holds s t) (k : Holds t u) : Holds s u :=
  ⟨h.regs.trans k.regs, h.resetting.trans k.resetting, h.faults.trans k.faults, h.refusals.trans k.refusals⟩

theorem Holds.relatch (x : Sfp) (d : Nat) (s : State) : Holds (relatch x d s) s := ⟨rfl, rfl, rfl, rfl⟩

theorem Holds.sock {t u : State} (h : Holds t u) (n : SockIx) : t.sock n = u.sock n := by
  rw [State.sock, State.sock, h.regs]

theorem Holds.peek {t u : State} (h : Holds t u) : peek t = peek u := peek_congr h.regs

/-- The response and the end of a frame leave what its slots hold. -/
theorem runFrame_holds (bytes : List Byte) (s : State) : Holds (runFrame bytes s) (slots bytes (assertLine s)).2 := by
  obtain ⟨regs, resetting, -, -⟩ :=
    endStep_sfp (respond (.miso (slots bytes (assertLine s)).1) (slots bytes (assertLine s)).2)
  exact ⟨regs, resetting, rfl, rfl⟩

theorem runFrame_responses (bytes : List Byte) (s : State) :
    (runFrame bytes s).responses = s.responses ++ [.miso (slots bytes (assertLine s)).1] := by
  have kept : (slots bytes (assertLine s)).2.responses = s.responses := by
    rw [(sfpOnly_slots bytes (assertLine s)).1]
    rfl
  rw [runFrame_eq, ← kept]
  rfl

/-- A frame of a block that is not reserved holds what its data slots hold. -/
theorem frame_holds {s : State} (ready : FrameReady s) {b : Bsb} (known : reservedBsb b = false) (rwb : Bool) (off : Word16)
    (om : OpMode) (data : List Byte) :
    Holds (runFrame (frameBytes b rwb off om data) s) (slots data (opened s b rwb off om)).2 := by
  obtain ⟨header, -, eq⟩ := slots_frameBytes b rwb off om data ready known
  have held := runFrame_holds (frameBytes b rwb off om data) s
  rw [eq] at held
  exact held

/-- A write frame holds what its writes leave, where none of them but the last starts the settling. -/
theorem writeFrame_holds {s : State} (ready : FrameReady s) {b : Bsb} (known : reservedBsb b = false) {off : Word16}
    {om : OpMode} {data : List Byte} (admits : om.admits data.length = true)
    (settled : ∀ k, k < data.length → (storeAll b off (data.take k) s).sfp.resetting = false) :
    Holds (runFrame (frameBytes b true off om data) s) (storeAll b off data s) := by
  obtain ⟨x, d, stored⟩ := slots_write (opened_inData ready b true off om) (by rwa [Nat.zero_add])
    (fun k hk => by rw [opened_eq_relatch, storeAll_relatch]; exact settled k hk)
  have held := frame_holds ready known true off om data
  rw [stored, opened_eq_relatch, storeAll_relatch, relatch_relatch] at held
  exact held.trans (.relatch _ _ _)

theorem admits_one (om : OpMode) : om.admits 1 = true := by cases om <;> rfl

/-- A write frame of one byte holds what its write leaves. -/
theorem writeByte_holds {s : State} (ready : FrameReady s) {b : Bsb} (known : reservedBsb b = false) (off : Word16)
    (om : OpMode) (v : Byte) : Holds (runFrame (frameBytes b true off om [v]) s) (memWrite b off v s) :=
  writeFrame_holds ready known (admits_one om) fun k hk => by
    obtain rfl : k = 0 := Nat.lt_one_iff.1 hk
    exact ready.settled

/-- A read frame of one byte holds what its read leaves. -/
theorem readByte_holds {s : State} (ready : FrameReady s) {b : Bsb} (known : reservedBsb b = false) (off : Word16)
    (om : OpMode) : Holds (runFrame (frameBytes b false off om (dummies 1)) s) (memRead b off s).2 := by
  have held := frame_holds ready known false off om (dummies 1)
  have slot : (slots (dummies 1) (opened s b false off om)).2 = (sfpSlot 0 (opened s b false off om)).2 := rfl
  obtain ⟨e, read⟩ := memRead_relatch b off (opened s b false off om).sfp (s.draws + 3) s
  rw [← opened_eq_relatch] at read
  rw [slot, sfpSlot_read (opened_inData ready b false off om), read] at held
  exact held.trans ⟨advance_regs _, advance_resetting _, rfl, rfl⟩

/-- A read frame over bytes the spec fixes returns them after three header bytes, and changes no register and no record. -/
theorem readFrame_returns {s : State} (ready : FrameReady s) {b : Bsb} (known : reservedBsb b = false) {off : Word16}
    {om : OpMode} {len : Nat} (admits : om.admits len = true)
    (fixed : ∀ k, k < len → (peek s b (off + BitVec.ofNat 16 k)).isSome = true)
    (totals : 2 ≤ (bsbKind b).toNat → TotalsOk s) :
    ∃ header vals, (runFrame (frameBytes b false off om (dummies len)) s).responses =
        s.responses ++ [.miso (header ++ vals)] ∧ header.length = 3 ∧
      vals.map some = (List.range len).map (fun k => peek s b (off + BitVec.ofNat 16 k)) ∧
      FrameLeaves s (runFrame (frameBytes b false off om (dummies len)) s) ∧
      (runFrame (frameBytes b false off om (dummies len)) s).sfp.regs = s.sfp.regs ∧
      (runFrame (frameBytes b false off om (dummies len)) s).faults = s.faults ∧
      (runFrame (frameBytes b false off om (dummies len)) s).refusals = s.refusals := by
  obtain ⟨header, three, eq⟩ := slots_frameBytes b false off om (dummies len) ready known
  have held := frame_holds ready known false off om (dummies len)
  have peeks : peek (opened s b false off om) = peek s := peek_congr rfl
  obtain ⟨values, regs, faults, refusals⟩ := slots_read (data := dummies len) (opened_inData ready b false off om)
    (by rw [Nat.zero_add, length_dummies, admits]) (fun k hk => by rw [peeks]; exact fixed k (length_dummies len ▸ hk))
    (fun buffer => ⟨(totals buffer).rx, (totals buffer).tx⟩)
  rw [length_dummies, peeks] at values
  exact ⟨header, _, by rw [runFrame_responses, eq], three, values, runFrame_leaves _ ready, held.regs.trans regs,
    held.faults.trans faults, held.refusals.trans refusals⟩

/-- After a frame that starts no settling the SFP is ready for the next one. -/
theorem frameReady_after {s t : State} (leaves : FrameLeaves s t) (ready : FrameReady s)
    (settled : t.sfp.resetting = false) : FrameReady t := by
  have spi : t.spi = s.spi := by rw [leaves.rest]
  have cfg : t.cfg = s.cfg := by rw [leaves.rest]
  refine ⟨settled, (linkOk_congr spi).trans ready.link, leaves.csPrev, ?_⟩
  rw [cfg, cs_congr spi]
  exact ready.released

/-! ### The identity registers (R147) -/

/-- The offset of a common register. -/
def commonOffset : CommonReg → Nat
  | .mr => 0
  | .gar i => 1 + i
  | .subr i => 5 + i
  | .shar i => 9 + i
  | .sipr i => 15 + i

theorem toNat_of_commonReg {off : Word16} {r : CommonReg} (named : commonReg off = some r) : off.toNat = commonOffset r := by
  unfold commonReg at named
  dsimp only at named
  split_ifs at named <;> cases named <;> simp only [commonOffset] <;> omega

theorem commonReg_inj {a b : Word16} {r : CommonReg} (ha : commonReg a = some r) (hb : commonReg b = some r) : a = b :=
  BitVec.eq_of_toNat_eq ((toNat_of_commonReg ha).trans (toNat_of_commonReg hb).symm)

theorem commonReg_identity {off : Word16} (low : 1 ≤ off.toNat) (high : off.toNat ≤ 0x12) :
    ∃ r, commonReg off = some r ∧ r ≠ .mr := by
  unfold commonReg
  dsimp only
  split_ifs
  · omega
  iterate 4 exact ⟨_, rfl, nofun⟩
  · omega

theorem commonReg_unnamed {off : Word16} (above : 0x12 < off.toNat) : commonReg off = none := by
  cases named : commonReg off with
  | none => rfl
  | some r =>
    have place := toNat_of_commonReg named
    cases r <;> simp only [commonOffset] at place <;> omega

theorem get_set {n : Nat} (xs : Vector Byte n) (i j : Fin n) (v : Byte) :
    (xs.set i v).get j = if j = i then v else xs.get j := by
  rw [Vector.get_eq_getElem, Vector.get_eq_getElem, Vector.getElem_set]
  simp only [Fin.ext_iff, eq_comm]

/-- A write of an identity register: it reads as written, and every other common register as before. -/
theorem commonValue_commonWrite {r : CommonReg} (identity : r ≠ .mr) (q : CommonReg) (v : Byte) (s : State) :
    commonValue (commonWrite r v s).sfp.regs q = if q = r then v else commonValue s.sfp.regs q := by
  cases r with
  | mr => exact absurd rfl identity
  | gar i | subr i | shar i | sipr i => cases q <;> simp [commonWrite, commonValue, get_set]

/-- A write of an identity register leaves MR, the sockets, the settling and the records. -/
theorem commonWrite_leaves {r : CommonReg} (identity : r ≠ .mr) (v : Byte) (s : State) :
    (commonWrite r v s).sfp.regs.mr = s.sfp.regs.mr ∧ (commonWrite r v s).sfp.regs.socks = s.sfp.regs.socks ∧
    (commonWrite r v s).sfp.resetting = s.sfp.resetting ∧ (commonWrite r v s).faults = s.faults ∧
    (commonWrite r v s).refusals = s.refusals := by
  cases r with
  | mr => exact absurd rfl identity
  | gar i | subr i | shar i | sipr i => exact ⟨rfl, rfl, rfl, rfl, rfl⟩

theorem memWrite_common {off : Word16} {r : CommonReg} (named : commonReg off = some r) (v : Byte) (s : State) :
    memWrite 0 off v s = commonWrite r v s := by
  rw [memWrite, named]
  rfl

/-! ### `peek` by block -/

theorem peek_common (s : State) (off : Word16) : peek s 0 off = (commonReg off).map (commonValue s.sfp.regs) := rfl

theorem peek_sockReg (s : State) (n : SockIx) (off : Word16) :
    peek s (bsbOf n 1) off = (sockReg off).map (sockValue (s.sock n)) := by
  rw [peek, bsbKind_bsbOf, bsbSock_bsbOf]
  rfl

theorem peek_txBuf (s : State) (n : SockIx) (off : Word16) : peek s (bsbOf n 2) off =
    if (s.sock n).txsz = 0 then none else (s.sock n).txbuf.read (cellIndex off (s.sock n).txsz) := by
  rw [peek, bsbKind_bsbOf, bsbSock_bsbOf]
  rfl

theorem peek_rxBuf (s : State) (n : SockIx) (off : Word16) : peek s (bsbOf n 3) off =
    if (s.sock n).rxsz = 0 then none else (s.sock n).rxbuf.read (cellIndex off (s.sock n).rxsz) := by
  rw [peek, bsbKind_bsbOf, bsbSock_bsbOf]
  rfl

/-- A block select is that of the common registers, a reserved one, or one of a socket's three (R63, R134). -/
theorem bsb_cases (c : Bsb) :
    c = 0 ∨ (bsbKind c = 0 ∧ bsbSock c ≠ 0) ∨ ∃ m, c = bsbOf m 1 ∨ c = bsbOf m 2 ∨ c = bsbOf m 3 := by
  revert c
  decide

theorem peek_reserved (s : State) {c : Bsb} (kind : bsbKind c = 0) (reserved : bsbSock c ≠ 0) (off : Word16) :
    peek s c off = none := by
  rw [peek, kind]
  exact if_neg reserved

/-- Outside the common block `peek` looks at the sockets alone. -/
theorem peek_of_socks {s t : State} (socks : t.sfp.regs.socks = s.sfp.regs.socks) {c : Bsb} (other : c ≠ 0) (off : Word16) :
    peek t c off = peek s c off := by
  have sock (m : SockIx) : t.sock m = s.sock m := by rw [State.sock, State.sock, socks]
  rcases bsb_cases c with rfl | ⟨kind, reserved⟩ | ⟨m, rfl | rfl | rfl⟩
  · exact absurd rfl other
  · rw [peek_reserved t kind reserved, peek_reserved s kind reserved]
  · rw [peek_sockReg, peek_sockReg, sock]
  · rw [peek_txBuf, peek_txBuf, sock]
  · rw [peek_rxBuf, peek_rxBuf, sock]

/-! ### A byte stored

Two offsets of a block name one cell where `cell` gives them one value: the offset itself for registers, the cell index for a
buffer. -/

/-- From `s` to `t` one byte of block `b` is stored: offset `off` reads `val`, every other cell as before, and neither the
settling nor a record changes. -/
structure StoresByte {α : Type} (cell : Word16 → α) (b : Bsb) (off : Word16) (val : Option Byte) (s t : State) : Prop where
  faults : t.faults = s.faults
  refusals : t.refusals = s.refusals
  resetting : t.sfp.resetting = s.sfp.resetting
  here : peek t b off = val
  elsewhere : ∀ c a, (c ≠ b ∨ cell a ≠ cell off) → peek t c a = peek s c a

/-- A write of an identity register stores its byte at its offset, and leaves MR and the sockets (R147). -/
theorem memWrite_identity {off : Word16} (low : 1 ≤ off.toNat) (high : off.toNat ≤ 0x12) (v : Byte) (s : State) :
    StoresByte id 0 off (some v) s (memWrite 0 off v s) ∧ (memWrite 0 off v s).sfp.regs.mr = s.sfp.regs.mr ∧
      (memWrite 0 off v s).sfp.regs.socks = s.sfp.regs.socks := by
  obtain ⟨r, named, identity⟩ := commonReg_identity low high
  obtain ⟨mr, socks, resetting, faults, refusals⟩ := commonWrite_leaves identity v s
  rw [memWrite_common named]
  refine ⟨⟨faults, refusals, resetting, ?_, fun c a elsewhere => ?_⟩, mr, socks⟩
  · rw [peek_common, named, Option.map_some, commonValue_commonWrite identity, if_pos rfl]
  · by_cases common : c = 0
    · subst common
      rw [peek_common, peek_common]
      cases place : commonReg a with
      | none => rfl
      | some q =>
        have apart : q ≠ r := fun e => elsewhere.elim (absurd rfl) fun away => away (commonReg_inj place (e ▸ named))
        rw [Option.map_some, Option.map_some, commonValue_commonWrite identity, if_neg apart]
    · exact peek_of_socks socks common a

end Sys2Proof.Proofs
end

section
/-!
PROOFS. A byte slot in the header and in the data phase (R133 to R137), and the frames of one data byte and of reserved block
selects, by what the byte's write or read leaves.
-/

namespace Sys2Proof.Proofs

open Sys2Proof.Laws Sys2Proof.Machine Sys2Proof.Machine.Laws

/-! ### The slots of a header and of the data phase -/

theorem reservedBsb_iff (ctl : Byte) :
    reservedBsb (ctlBsb ctl) = true ↔ ctl.extractLsb' 3 2 = 0 ∧ ctl.extractLsb' 5 3 ≠ 0 := by
  revert ctl
  decide

theorem ctrlSlot_reserved {ctl : Byte} (reserved : reservedBsb (ctlBsb ctl) = true) (s : State) : ctrlSlot ctl s =
    (raiseFault .sfpReservedBsb s).onSfp fun x => { x with ctl := ctl, n := 0, phase := .idle } := by
  rw [ctrlSlot, if_pos reserved]

theorem ctrlSlot_known {ctl : Byte} (known : reservedBsb (ctlBsb ctl) = false) (s : State) : ctrlSlot ctl s =
    s.onSfp fun x => { x with ctl := ctl, n := 0, phase := .data } := by
  rw [ctrlSlot, known, if_neg Bool.false_ne_true]

/-- The mode and the count say whether a data byte is the frame's last (R64, R137). -/
theorem last_iff (ctl : Byte) (n : Nat) : (decodeOm ctl).len = some (n + 1) ↔
    (ctl.extractLsb' 0 2 = 1 ∧ n + 1 = 1) ∨ (ctl.extractLsb' 0 2 = 2 ∧ n + 1 = 2) ∨
      (ctl.extractLsb' 0 2 = 3 ∧ n + 1 = 4) := by
  have modes : ∀ om : BitVec 2, om = 0 ∨ om = 1 ∨ om = 2 ∨ om = 3 := by decide
  unfold decodeOm
  rcases modes (ctl.extractLsb' 0 2) with om | om | om | om <;> rw [om] <;> simp [OpMode.len, eq_comm]

/-- The counters and the phase after a data slot are those of `Sfp.advance`, whatever the slot moved. -/
theorem dataSlot_latches (b : Byte) (s : State) : latches (dataSlot b s).2.sfp = latches s.sfp.advance := by
  have moved (x : Sfp) (same : latches x = latches s.sfp) : latches x.advance = latches s.sfp.advance := by
    simp only [latches, Prod.mk.injEq] at same
    obtain ⟨phase, addr, ctl, count, csPrev⟩ := same
    unfold Sfp.advance
    rw [ctl, count]
    split <;> simp only [latches, phase, addr, csPrev]
  cases write : ctlWrite s.sfp.ctl with
  | false =>
    rw [dataSlot_read b write]
    exact moved _ (congrArg latches (memRead_sfp _ _ s))
  | true =>
    rw [dataSlot_write b write]
    exact moved _ (memWrite_latches _ _ b s)

theorem advance_cases {x : Sfp} (data : x.phase = .data) :
    ((decodeOm x.ctl).len = some (x.n + 1) → x.advance.phase = .addrHi ∧ x.advance.n = 0) ∧
    ((decodeOm x.ctl).len ≠ some (x.n + 1) → x.advance.phase = .data ∧ x.advance.n = x.n + 1) := by
  refine ⟨fun last => ?_, fun more => ?_⟩
  · rw [Sfp.advance, if_pos last]
    exact ⟨rfl, rfl⟩
  · rw [← data]
    exact advance_more more

theorem dataSlot_read_holds {s : State} (b : Byte) (read : ctlWrite s.sfp.ctl = false) :
    Holds (dataSlot b s).2 (memRead (ctlBsb s.sfp.ctl) s.sfp.addr s).2 := by
  rw [dataSlot_read b read]
  exact ⟨advance_regs _, advance_resetting _, rfl, rfl⟩

theorem dataSlot_write_holds {s : State} (b : Byte) (write : ctlWrite s.sfp.ctl = true) :
    Holds (dataSlot b s).2 (memWrite (ctlBsb s.sfp.ctl) s.sfp.addr b s) := by
  rw [dataSlot_write b write]
  exact ⟨advance_regs _, advance_resetting _, rfl, rfl⟩

/-- Settles O43: the header by `slots_header`, the counters by `dataSlot_latches`, the byte by the direction of the frame. -/
theorem headerBytesAreLatched : Obligations.HeaderBytesAreLatched := by
  refine ⟨fun hi lo ctl s settled link phase => ?_, fun b s settled link phase => ?_⟩
  · rw [slots_header hi lo ctl settled link phase, ← reservedBsb_iff]
    cases reserved : reservedBsb (ctlBsb ctl) with
    | true =>
      rw [ctrlSlot_reserved reserved]
      simp [mem_raiseFault_iff]
    | false =>
      rw [ctrlSlot_known reserved]
      simp
  · have latched := dataSlot_latches b s
    have reach := sfpOnly_sfpSlot b s
    rw [sfpSlot_data b settled link phase] at reach ⊢
    simp only [latches, Prod.mk.injEq] at latched
    obtain ⟨phase', addr, ctl, count, csPrev⟩ := latched
    obtain ⟨last, more⟩ := advance_cases phase
    rw [last_iff] at last
    rw [Ne, last_iff] at more
    refine ⟨⟨?_, ctl.trans (advance_ctl _), csPrev.trans (advance_csPrev _), reach.1⟩, ?_, ?_, fun read => ?_,
      fun write => ?_⟩
    · rw [addr, advance_addr]
      exact BitVec.toNat_add _ _
    · rw [phase', count]
      exact last
    · rw [phase', count]
      exact more
    · have held := dataSlot_read_holds b read
      have miso : (dataSlot b s).1 = (memRead (ctlBsb s.sfp.ctl) s.sfp.addr s).1 := by rw [dataSlot_read b read]
      refine ⟨miso, held.faults, held.refusals,
        held.regs.trans (congrArg Sfp.regs (memRead_sfp _ _ s)),
        held.resetting.trans ((congrArg Sfp.resetting (memRead_sfp _ _ s)).trans settled), fun v fixed => ?_⟩
      obtain ⟨byte, refusals, faults⟩ := memRead_fixed fixed
      exact ⟨miso.trans byte, held.refusals.trans refusals,
        fun totals => held.faults.trans (faults totals)⟩
    · have held := dataSlot_write_holds b write
      refine ⟨held.regs, held.resetting, held.faults, held.refusals, fun common low high => ?_⟩
      obtain ⟨stored, -⟩ := memWrite_identity low high b s
      rw [show ctlBsb s.sfp.ctl = 0 from common] at held
      rw [held.peek]
      exact ⟨held.faults.trans stored.faults, held.refusals.trans stored.refusals, stored.here, stored.elsewhere⟩

/-! ### Frames of one byte: the registers -/

/-- A write of MR: a soft reset, or bits 6:0 (R166). -/
theorem writeMr_cases (v : Byte) (s : State) :
    (v.getLsbD 7 = true → writeMr v s = softReset s) ∧
    (v.getLsbD 7 = false → writeMr v s = s.onRegs fun r => { r with mr := (r.mr &&& 0x80) ||| (v &&& 0x7F) }) := by
  refine ⟨fun rst => ?_, fun store => ?_⟩
  · rw [writeMr, if_pos rst]
  · rw [writeMr, store, if_neg Bool.false_ne_true]

theorem getLsbD_storedMr (mr v : Byte) : ((mr &&& 0x80) ||| (v &&& 0x7F)).getLsbD 7 = mr.getLsbD 7 ∧
    ∀ i, i < 7 → ((mr &&& 0x80) ||| (v &&& 0x7F)).getLsbD i = v.getLsbD i := by
  refine ⟨by simp, fun i hi => ?_⟩
  interval_cases i <;> simp

/-- Settles O47: the frame holds what `writeMr` leaves. -/
theorem modeRegisterWriteAndSoftReset : Obligations.ModeRegisterWriteAndSoftReset := by
  intro om v s ready
  obtain ⟨regs, resetting, faults, refusals⟩ := writeByte_holds ready reservedBsb_zero 0x0000 om v
  rw [show memWrite 0 0x0000 v s = writeMr v s from rfl] at regs resetting faults refusals
  obtain ⟨reset, store⟩ := writeMr_cases v s
  cases bit : v.getLsbD 7 with
  | true =>
    rw [reset bit] at regs resetting faults refusals
    exact ⟨_, rfl, runFrame_leaves _ ready, faults, refusals, fun _ => ⟨resetting, regs⟩, nofun⟩
  | false =>
    rw [store bit] at regs resetting faults refusals
    refine ⟨_, rfl, runFrame_leaves _ ready, faults, refusals, nofun, fun _ => ⟨resetting.trans ready.settled, ?_⟩⟩
    rw [regs]
    exact ⟨rfl, getLsbD_storedMr s.sfp.regs.mr v⟩

/-- The block select of a socket's registers, TX buffer and RX buffer is not reserved (R134). -/
theorem known_bsbOf (n : SockIx) : reservedBsb (bsbOf n 1) = false ∧ reservedBsb (bsbOf n 2) = false ∧
    reservedBsb (bsbOf n 3) = false :=
  ⟨reservedBsb_bsbOf n 1 (by decide), reservedBsb_bsbOf n 2 (by decide), reservedBsb_bsbOf n 3 (by decide)⟩

theorem memWrite_sockReg {off : Word16} {r : SockReg} (named : sockReg off = some r) (n : SockIx) (v : Byte) (s : State) :
    memWrite (bsbOf n 1) off v s = sockWrite n r v s := by
  rw [memWrite, bsbKind_bsbOf, bsbSock_bsbOf, named]
  rfl

theorem mem_checkTotal_iff (f : Fault) (s : State) :
    f ∈ (checkTotal s).faults ↔ (f = .sfpBufsizeTotal ∧ ¬TotalsOk s) ∨ f ∈ s.faults := by
  rcases checkTotal_cases s with ⟨rx, tx, same⟩ | ⟨exceeded, raised⟩
  · have totals : TotalsOk s := ⟨rx, tx⟩
    rw [same]
    simp [totals]
  · have totals : ¬TotalsOk s := fun ⟨rx, tx⟩ => by omega
    rw [raised, mem_raiseFault_iff]
    simp [totals]

/-- A write of Sn_CR by its four cases (R150, R165). -/
theorem writeCr_cases (n : SockIx) (c : Byte) (s : State) :
    (c = 0 → writeCr n c s = s) ∧
    (c ≠ 0 → (s.sock n).crpend ≠ 0 → writeCr n c s = raiseFault .sfpCmdOverrun s) ∧
    (c ≠ 0 → (s.sock n).crpend = 0 → c ∉ commandCodes → writeCr n c s = refuseCommand s) ∧
    (c ∈ commandCodes → (s.sock n).crpend = 0 →
      writeCr n c s = (checkTotal s).onSock n fun k => { k with crpend := c }) := by
  have command : c ∈ commandCodes → c ≠ 0 := by
    rintro known rfl
    exact absurd known (by decide)
  refine ⟨fun none => ?_, fun some pending => ?_, fun some free unknown => ?_, fun known free => ?_⟩
  · rw [writeCr, if_pos none]
  · rw [writeCr, if_neg some, if_pos pending]
  · rw [writeCr, if_neg some, if_neg (not_not.2 free), if_neg (by simpa using unknown)]
  · rw [writeCr, if_neg (command known), if_neg (not_not.2 free), if_pos (by simpa using known)]

/-- Settles O49: the frame holds what `writeCr` leaves. -/
theorem commandRegisterWrite : Obligations.CommandRegisterWrite := by
  intro n om c s ready
  have held := writeByte_holds ready (known_bsbOf n).1 0x0001 om c
  rw [memWrite_sockReg (r := .cr) rfl, show sockWrite n .cr c s = writeCr n c s from rfl] at held
  obtain ⟨none, overrun, reserved, known⟩ := writeCr_cases n c s
  refine ⟨_, rfl, runFrame_leaves _ ready, fun h => ?_, fun h pending => ?_, fun h free unknown => ?_, fun h free => ?_⟩
  · rw [none h] at held
    exact ⟨held.regs, held.faults, held.refusals⟩
  · rw [overrun h pending] at held
    exact ⟨held.regs.trans (by rw [raiseFault_sfp]), held.faults ▸ mem_raiseFault _ s,
      held.refusals.trans (raiseFault_refusals _ s)⟩
  · rw [reserved h free unknown] at held
    exact ⟨held.regs.trans (by rw [refuseCommand, refuse_sfp]), held.refusals ▸ mem_refuse _ s,
      held.faults.trans (refuse_faults _ s)⟩
  · rw [known h free] at held
    refine ⟨?_, fun m other => ?_, ?_, held.refusals.trans (checkTotal_refusals s), fun totals => ?_, fun exceeded => ?_⟩
    · rw [held.sock, sock_onSock_same, checkTotal_sock]
    · rw [held.sock, sock_onSock_other _ _ _ _ other, checkTotal_sock]
    · rw [held.regs, sfp_onSock, checkTotal_sfp]
    · rw [held.faults, onSock_faults, checkTotal_ok totals]
    · rw [held.faults]
      exact (mem_checkTotal_iff _ s).2 (.inl ⟨rfl, exceeded⟩)

theorem legalSize_iff (v : Byte) : legalSize v = true ↔ v.toNat ∈ [0, 1, 2, 4, 8, 16] := List.contains_iff_mem

/-- What a write of a buffer size leaves: an illegal size is a fault and nothing else; a legal one leaves the socket `k`,
and nothing else changes (R151). -/
structure SizeWritten (n : SockIx) (v : Byte) (k : Socket) (s t : State) : Prop where
  refusals : t.refusals = s.refusals
  illegal : v.toNat ∉ [0, 1, 2, 4, 8, 16] → t.sfp.regs = s.sfp.regs ∧
    ∀ f, f ∈ t.faults ↔ f = .sfpIllegalBufsize ∨ f ∈ s.faults
  legal : v.toNat ∈ [0, 1, 2, 4, 8, 16] → t.faults = s.faults ∧
    t.sfp.regs = { s.sfp.regs with socks := t.sfp.regs.socks } ∧ (∀ m, m ≠ n → t.sock m = s.sock m) ∧ t.sock n = k

theorem SizeWritten.of_holds {n : SockIx} {v : Byte} {k : Socket} {s t u : State} (held : Holds t u)
    (h : SizeWritten n v k s u) : SizeWritten n v k s t := by
  obtain ⟨refusals, illegal, legal⟩ := h
  refine ⟨held.refusals.trans refusals, ?_, ?_⟩
  · rw [held.regs, held.faults]
    exact illegal
  · simp only [held.sock]
    rw [held.regs, held.faults]
    exact legal

theorem sizeWritten {n : SockIx} {v present : Byte} {f : Socket → Socket} {s : State} :
    SizeWritten n v (if v = present then s.sock n else f (s.sock n)) s
      (if legalSize v = false then raiseFault .sfpIllegalBufsize s
       else if v = present then s else s.onSock n f) := by
  cases legal : legalSize v with
  | false =>
    have illegal : v.toNat ∉ [0, 1, 2, 4, 8, 16] := fun h => by
      rw [(legalSize_iff v).2 h] at legal
      cases legal
    rw [if_pos rfl]
    exact ⟨raiseFault_refusals _ s, fun _ => ⟨by rw [raiseFault_sfp], fun f => mem_raiseFault_iff _ f s⟩,
      fun h => absurd h illegal⟩
  | true =>
    rw [if_neg (Bool.false_ne_true ∘ Eq.symm)]
    by_cases same : v = present
    · rw [if_pos same, if_pos same]
      exact ⟨rfl, fun h => absurd ((legalSize_iff v).1 legal) h, fun _ => ⟨rfl, rfl, fun _ _ => rfl, rfl⟩⟩
    · rw [if_neg same, if_neg same]
      exact ⟨rfl, fun h => absurd ((legalSize_iff v).1 legal) h, fun _ => ⟨rfl, rfl,
        fun m other => sock_onSock_other s m n f other, sock_onSock_same s n f⟩⟩

/-- Settles O50: the frames hold what the two size writes leave. -/
theorem bufferSizeWrite : Obligations.BufferSizeWrite := by
  intro n om v s ready
  have heldRx := writeByte_holds ready (known_bsbOf n).1 0x001E om v
  have heldTx := writeByte_holds ready (known_bsbOf n).1 0x001F om v
  rw [memWrite_sockReg (r := .rxsz) rfl] at heldRx
  rw [memWrite_sockReg (r := .txsz) rfl] at heldTx
  have rx := SizeWritten.of_holds heldRx sizeWritten
  have tx := SizeWritten.of_holds heldTx sizeWritten
  refine ⟨_, _, rfl, runFrame_leaves _ ready, rfl, runFrame_leaves _ ready, rx.refusals, tx.refusals, fun illegal => ?_,
    fun legal => ?_⟩
  · obtain ⟨regsRx, faultsRx⟩ := rx.illegal illegal
    obtain ⟨regsTx, faultsTx⟩ := tx.illegal illegal
    exact ⟨regsRx, regsTx, faultsRx, faultsTx⟩
  · obtain ⟨faultsRx, regsRx, othersRx, sockRx⟩ := rx.legal legal
    obtain ⟨faultsTx, regsTx, othersTx, sockTx⟩ := tx.legal legal
    exact ⟨faultsRx, faultsTx, regsRx, regsTx, fun m other => ⟨othersRx m other, othersTx m other⟩, sockRx, sockTx⟩

end Sys2Proof.Proofs
end

section
/-!
PROOFS. The frames that fault or are refused: buffer accesses (R143 to R146, R151, R152), unnamed registers (R153), reserved
block selects (R134).
-/

namespace Sys2Proof.Proofs

open Sys2Proof.Laws Sys2Proof.Machine Sys2Proof.Machine.Laws

/-! ### Buffer accesses (R143, R144, R145, R152) -/

theorem memRead_txBuf (n : SockIx) (off : Word16) (s : State) :
    memRead (bsbOf n 2) off s = bufRead (s.sock n).txsz (s.sock n).txbuf off s := by
  rw [memRead, bsbKind_bsbOf, bsbSock_bsbOf]
  rfl

theorem memRead_rxBuf (n : SockIx) (off : Word16) (s : State) :
    memRead (bsbOf n 3) off s = bufRead (s.sock n).rxsz (s.sock n).rxbuf off s := by
  rw [memRead, bsbKind_bsbOf, bsbSock_bsbOf]
  rfl

theorem memWrite_txBuf (n : SockIx) (off : Word16) (v : Byte) (s : State) :
    memWrite (bsbOf n 2) off v s = txBufWrite n off v s := by
  rw [memWrite, bsbKind_bsbOf, bsbSock_bsbOf]
  rfl

theorem memWrite_rxBuf (n : SockIx) (off : Word16) (v : Byte) (s : State) :
    memWrite (bsbOf n 3) off v s = refuse .sfpRxbufWrite s := by
  rw [memWrite, bsbKind_bsbOf]
  rfl

theorem txBufWrite_cases (n : SockIx) (off : Word16) (v : Byte) (s : State) :
    ((s.sock n).txsz = 0 → txBufWrite n off v s = refuse .sfpBufZero (checkTotal s)) ∧
    ((s.sock n).txsz ≠ 0 → txBufWrite n off v s =
      (checkTotal s).onSock n fun k => { k with txbuf := k.txbuf.write (cellIndex off k.txsz) v }) := by
  refine ⟨fun zero => ?_, fun size => ?_⟩
  · rw [txBufWrite, if_pos zero]
  · rw [txBufWrite, if_neg size]

/-- What an access to a buffer of size `sz` records: SFP_BUFSIZE_TOTAL where the totals are exceeded, SFP_BUF_ZERO where the
buffer has size 0 (R151, R152). -/
structure BufferRecords (sz : Byte) (s t : State) : Prop where
  faults : ∀ f, f ∈ t.faults ↔ (f = .sfpBufsizeTotal ∧ ¬TotalsOk s) ∨ f ∈ s.faults
  refusals : ∀ r, r ∈ t.refusals ↔ (r = .sfpBufZero ∧ sz = 0) ∨ r ∈ s.refusals

theorem BufferRecords.of_holds {sz : Byte} {s t u : State} (held : Holds t u) (h : BufferRecords sz s u) :
    BufferRecords sz s t :=
  ⟨held.faults ▸ h.faults, held.refusals ▸ h.refusals⟩

theorem bufferRecords_zero {s t : State} (faults : t.faults = (checkTotal s).faults)
    (refusals : t.refusals = (refuse .sfpBufZero (checkTotal s)).refusals) : BufferRecords 0 s t := by
  refine ⟨fun f => by rw [faults, mem_checkTotal_iff], fun r => ?_⟩
  rw [refusals, mem_refuse_iff, checkTotal_refusals]
  simp

theorem bufferRecords_size {sz : Byte} (size : sz ≠ 0) {s t : State} (faults : t.faults = (checkTotal s).faults)
    (refusals : t.refusals = (checkTotal s).refusals) : BufferRecords sz s t := by
  refine ⟨fun f => by rw [faults, mem_checkTotal_iff], fun r => ?_⟩
  rw [refusals, checkTotal_refusals]
  exact (or_iff_right fun h => size h.2).symm

theorem bufRead_records (sz : Byte) (m : Memory) (off : Word16) (s : State) :
    BufferRecords sz s (bufRead sz m off s).2 := by
  unfold bufRead
  split
  · next zero =>
    subst zero
    exact bufferRecords_zero (refuse_faults _ _) rfl
  · next size => split <;> exact bufferRecords_size size rfl rfl

theorem txBufWrite_records (n : SockIx) (off : Word16) (v : Byte) (s : State) :
    BufferRecords (s.sock n).txsz s (txBufWrite n off v s) := by
  obtain ⟨refused, stored⟩ := txBufWrite_cases n off v s
  by_cases zero : (s.sock n).txsz = 0
  · rw [refused zero, zero]
    exact bufferRecords_zero (refuse_faults _ _) rfl
  · rw [stored zero]
    exact bufferRecords_size zero rfl rfl

/-- Settles O52: the reads hold what `bufRead` leaves, the write what `txBufWrite` leaves. -/
theorem bufferAccessOutcomes : Obligations.BufferAccessOutcomes := by
  intro n off om v s ready p hp
  obtain ⟨-, txKnown, rxKnown⟩ := known_bsbOf n
  simp only [List.mem_cons, List.not_mem_nil, or_false] at hp
  rcases hp with rfl | rfl | rfl
  · have held := readByte_holds ready txKnown off om
    rw [memRead_txBuf] at held
    obtain ⟨faults, refusals⟩ := (bufRead_records _ _ off s).of_holds held
    exact ⟨_, rfl, runFrame_leaves _ ready, faults, refusals, fun _ => held.regs.trans (by rw [bufRead_sfp]), nofun⟩
  · have held := writeByte_holds ready txKnown off om v
    rw [memWrite_txBuf] at held
    obtain ⟨faults, refusals⟩ := (txBufWrite_records n off v s).of_holds held
    obtain ⟨refused, stored⟩ := txBufWrite_cases n off v s
    refine ⟨_, rfl, runFrame_leaves _ ready, faults, refusals, fun h => ?_, fun size _ => ?_⟩
    · have zero := h.resolve_right (not_not.2 rfl)
      rw [held.regs, refused zero, refuse_sfp, checkTotal_sfp]
    · rw [stored size] at held
      refine ⟨?_, fun m other => ?_, ?_⟩
      · rw [held.regs, sfp_onSock, checkTotal_sfp]
      · rw [held.sock, sock_onSock_other _ _ _ _ other, checkTotal_sock]
      · rw [held.sock, sock_onSock_same, checkTotal_sock]
  · have held := readByte_holds ready rxKnown off om
    rw [memRead_rxBuf] at held
    obtain ⟨faults, refusals⟩ := (bufRead_records _ _ off s).of_holds held
    exact ⟨_, rfl, runFrame_leaves _ ready, faults, refusals, fun _ => held.regs.trans (by rw [bufRead_sfp]), nofun⟩

/-! ### Writes into a receive buffer (R146) -/

theorem refuse_refuse (r : Refusal) (s : State) : refuse r (refuse r s) = refuse r s := if_pos (mem_refuse r s)

/-- However many bytes a receive-buffer write has, it leaves what its first one leaves. -/
theorem storeAll_rxBuf (n : SockIx) (off : Word16) (v : Byte) (rest : List Byte) (s : State) :
    storeAll (bsbOf n 3) off (v :: rest) s = refuse .sfpRxbufWrite s := by
  rw [storeAll, memWrite_rxBuf]
  induction rest generalizing off with
  | nil => rfl
  | cons w rest ih => rw [storeAll, memWrite_rxBuf, refuse_refuse, ih]

/-- Settles O53: no data byte stores nothing, and any more are refused as one is. -/
theorem rxBufferWriteIsRefused : Obligations.RxBufferWriteIsRefused := by
  intro n off om data s admits ready
  have rxKnown := (known_bsbOf n).2.2
  cases data with
  | nil =>
    have held := writeFrame_holds ready rxKnown (off := off) admits nofun
    exact ⟨_, rfl, runFrame_leaves _ ready, held.regs, held.faults, fun _ => held.refusals, fun h => absurd rfl h⟩
  | cons v rest =>
    have held := writeFrame_holds ready rxKnown (off := off) admits fun k hk => by
      cases k with
      | zero => exact ready.settled
      | succ k => rw [List.take_succ_cons, storeAll_rxBuf, refuse_sfp]; exact ready.settled
    rw [storeAll_rxBuf] at held
    refine ⟨_, rfl, runFrame_leaves _ ready, held.regs.trans (by rw [refuse_sfp]), held.faults.trans (refuse_faults _ s),
      nofun, fun _ r => ?_⟩
    rw [held.refusals, mem_refuse_iff]

/-! ### Unnamed registers (R153) -/

theorem sockReg_unnamed {off : Word16} (unnamed : off.toNat ∉ [0x00, 0x01, 0x03, 0x04, 0x05, 0x1E, 0x1F]) :
    sockReg off = none := by
  unfold sockReg
  split
  case h_8 => rfl
  all_goals
    next place =>
    rw [place] at unnamed
    exact absurd (by decide) unnamed

/-- At an unnamed register a read and a write leave the refusal and what was there (R153). -/
structure RefusesAt (b : Bsb) (off : Word16) (v : Byte) (s : State) : Prop where
  read : memRead b off s = unmodelledRead s
  write : memWrite b off v s = unmodelledWrite s

theorem refusesAt_common {off : Word16} (unnamed : commonReg off = none) (v : Byte) (s : State) : RefusesAt 0 off v s := by
  refine ⟨?_, ?_⟩
  · rw [memRead, unnamed]
    rfl
  · rw [memWrite, unnamed]
    rfl

theorem refusesAt_socket {off : Word16} (unnamed : sockReg off = none) (n : SockIx) (v : Byte) (s : State) :
    RefusesAt (bsbOf n 1) off v s := by
  refine ⟨?_, ?_⟩
  · rw [memRead, bsbKind_bsbOf, unnamed]
    rfl
  · rw [memWrite, bsbKind_bsbOf, unnamed]
    rfl

/-- The frame from `s` to `t` was refused SFP_UNMODELLED_REG, and the SFP holds what it held. -/
def RefusedUnmodelled (s t : State) : Prop :=
  FrameLeaves s t ∧ t.sfp.regs = s.sfp.regs ∧ .sfpUnmodelledReg ∈ t.refusals ∧ t.faults = s.faults

theorem refusedUnmodelled_of_holds {s u : State} {bytes : List Byte} (ready : FrameReady s)
    (held : Holds (runFrame bytes s) u) (refused : Holds u (refuse .sfpUnmodelledReg s)) :
    RefusedUnmodelled s (runFrame bytes s) := by
  obtain ⟨regs, -, faults, refusals⟩ := held.trans refused
  exact ⟨runFrame_leaves _ ready, regs.trans (by rw [refuse_sfp]), refusals ▸ mem_refuse _ s,
    faults.trans (refuse_faults _ s)⟩

/-- One byte read from or written to an unnamed register is refused. -/
theorem refusesAt_frames {s : State} (ready : FrameReady s) {b : Bsb} (known : reservedBsb b = false) {off : Word16} {v : Byte}
    (refuses : RefusesAt b off v s) (om : OpMode) :
    RefusedUnmodelled s (runFrame (frameBytes b false off om (dummies 1)) s) ∧
      RefusedUnmodelled s (runFrame (frameBytes b true off om [v]) s) := by
  have read := readByte_holds ready known off om
  have write := writeByte_holds ready known off om v
  rw [refuses.read] at read
  rw [refuses.write] at write
  exact ⟨refusedUnmodelled_of_holds ready read ⟨rfl, rfl, rfl, rfl⟩,
    refusedUnmodelled_of_holds ready write ⟨rfl, rfl, rfl, rfl⟩⟩

/-- Settles O54: an offset outside the tables of R147 and R148 names no register. -/
theorem unnamedRegistersAreRefused : Obligations.UnnamedRegistersAreRefused := by
  intro n off om v s ready
  simp only [List.mem_cons, List.not_mem_nil, or_false, forall_eq_or_imp, forall_eq]
  refine ⟨fun above => ?_, fun unnamed => ?_⟩
  · obtain ⟨read, write⟩ := refusesAt_frames ready reservedBsb_zero (refusesAt_common (commonReg_unnamed above) v s) om
    exact ⟨⟨_, rfl, read⟩, ⟨_, rfl, write⟩⟩
  · obtain ⟨read, write⟩ := refusesAt_frames ready (known_bsbOf n).1
      (refusesAt_socket (sockReg_unnamed (by simpa using unnamed)) n v s) om
    exact ⟨⟨_, rfl, read⟩, ⟨_, rfl, write⟩⟩

/-! ### Reserved block selects (R134) -/

/-- With the parser in IDLE the slots of an assertion take draws alone (R133). -/
theorem slots_idle {data : List Byte} {s : State} (settled : s.sfp.resetting = false) (link : linkOk s = true)
    (idle : s.sfp.phase = .idle) : (slots data s).2 = { s with draws := s.draws + data.length } := by
  induction data generalizing s with
  | nil => rfl
  | cons b rest ih =>
    show (slots rest (sfpSlot b s).2).2 = _
    rw [sfpSlot_idle b settled link idle, ih (s := (draw s).2) settled link idle, List.length_cons]
    show ({ s with draws := s.draws + 1 + rest.length } : State) = { s with draws := s.draws + (rest.length + 1) }
    rw [Nat.add_right_comm, Nat.add_assoc]

theorem assertLine_eq_relatch (s : State) : assertLine s = relatch (s.sfp.edge true) s.draws s := by
  rw [relatch, ← edge_regs s.sfp true, ← edge_resetting s.sfp true]
  rfl

/-- A header with a reserved block select leaves its fault and the parser in IDLE (R133, R134). -/
theorem slots_reservedHeader {s : State} (ready : FrameReady s) {ctl : Byte} (reserved : reservedBsb (ctlBsb ctl) = true)
    (hi lo : Byte) : ∃ x d, x.phase = .idle ∧
      (slots [hi, lo, ctl] (assertLine s)).2 = relatch x d (raiseFault .sfpReservedBsb s) := by
  have phase : (assertLine s).sfp.phase = .addrHi := by simp [assertLine, Sfp.edge, ready.seen_released]
  have settled : (assertLine s).sfp.resetting = false := (edge_resetting s.sfp true).trans ready.settled
  rw [slots_header hi lo ctl settled ready.link phase, ctrlSlot_reserved reserved, assertLine_eq_relatch]
  have raised := raiseFault_relatch .sfpReservedBsb { s.sfp.edge true with addr := hi ++ lo, phase := .ctrl }
    (s.draws + 2) s
  exact ⟨{ s.sfp.edge true with addr := hi ++ lo, phase := .idle, ctl := ctl, n := 0 }, s.draws + 3, rfl,
    congrArg (fun u : State => (draw (u.onSfp fun x => { x with ctl := ctl, n := 0, phase := .idle })).2) raised⟩

/-- A frame with a reserved block select leaves its fault, whatever its data. -/
theorem reservedFrame_holds {s : State} (ready : FrameReady s) {b : Bsb} (reserved : reservedBsb b = true) (rwb : Bool)
    (off : Word16) (om : OpMode) (data : List Byte) :
    Holds (runFrame (frameBytes b rwb off om data) s) (raiseFault .sfpReservedBsb s) := by
  obtain ⟨x, d, idle, header⟩ := slots_reservedHeader ready (ctl := ctlByte b rwb om) (by rw [ctlByte_bsb]; exact reserved)
    (off.extractLsb' 8 8) (off.extractLsb' 0 8)
  have bytes : frameBytes b rwb off om data =
      [off.extractLsb' 8 8, off.extractLsb' 0 8, ctlByte b rwb om] ++ data := rfl
  have held := runFrame_holds (frameBytes b rwb off om data) s
  have settled : (relatch x d (raiseFault .sfpReservedBsb s)).sfp.resetting = false :=
    (congrArg Sfp.resetting (raiseFault_sfp _ s)).trans ready.settled
  have link : linkOk (relatch x d (raiseFault .sfpReservedBsb s)) = true :=
    (linkOk_congr (raiseFault_spi _ s)).trans ready.link
  rw [bytes, slots_append, header, slots_idle settled link idle, ← bytes] at held
  exact held.trans ⟨rfl, rfl, rfl, rfl⟩

/-- Such a frame records SFP_RESERVED_BSB and changes nothing else the SFP or the records hold. -/
theorem reservedFrame_faults {s : State} (ready : FrameReady s) {b : Bsb} (reserved : reservedBsb b = true) (rwb : Bool)
    (off : Word16) (om : OpMode) (data : List Byte) :
    let t := runFrame (frameBytes b rwb off om data) s
    FrameLeaves s t ∧ t.sfp.regs = s.sfp.regs ∧ t.refusals = s.refusals ∧
      ∀ f, f ∈ t.faults ↔ f = .sfpReservedBsb ∨ f ∈ s.faults := by
  obtain ⟨regs, -, faults, refusals⟩ := reservedFrame_holds ready reserved rwb off om data
  exact ⟨runFrame_leaves _ ready, regs.trans (by rw [raiseFault_sfp]), refusals.trans (raiseFault_refusals _ s),
    fun f => by rw [faults, mem_raiseFault_iff]⟩

/-- Settles O55: each of the seven block selects is reserved. -/
theorem reservedBlockSelectsFault : Obligations.ReservedBlockSelectsFault := by
  intro off rwb om data s ready i hi
  simp only [List.mem_cons, List.not_mem_nil, or_false] at hi
  rcases hi with rfl | rfl | rfl | rfl | rfl | rfl | rfl
  · exact ⟨_, rfl, reservedFrame_faults ready (b := 4) (by decide) rwb off om data⟩
  · exact ⟨_, rfl, reservedFrame_faults ready (b := 8) (by decide) rwb off om data⟩
  · exact ⟨_, rfl, reservedFrame_faults ready (b := 12) (by decide) rwb off om data⟩
  · exact ⟨_, rfl, reservedFrame_faults ready (b := 16) (by decide) rwb off om data⟩
  · exact ⟨_, rfl, reservedFrame_faults ready (b := 20) (by decide) rwb off om data⟩
  · exact ⟨_, rfl, reservedFrame_faults ready (b := 24) (by decide) rwb off om data⟩
  · exact ⟨_, rfl, reservedFrame_faults ready (b := 28) (by decide) rwb off om data⟩

end Sys2Proof.Proofs
end

section
/-!
PROOFS. Frames of many bytes: a write frame stores its data where each of its writes stores its byte (`writeFrame_stores`), as
over the identity registers (R140, R147); and read frames (R139, R141, R143, R145).
-/

namespace Sys2Proof.Proofs

open Sys2Proof.Laws Sys2Proof.Machine Sys2Proof.Machine.Laws

/-! ### Bytes stored one after the other -/

/-- From `s` to `t` the bytes of `data` are stored in block `b` from offset `off` on: each offset reads what `val` says of it
and its byte, every other cell as before, and neither the settling nor a record changes. -/
structure StoresData {α : Type} (cell : Word16 → α) (b : Bsb) (val : Word16 → Byte → Option Byte) (off : Word16)
    (data : List Byte) (s t : State) : Prop where
  faults : t.faults = s.faults
  refusals : t.refusals = s.refusals
  resetting : t.sfp.resetting = s.sfp.resetting
  here : ∀ k v, data[k]? = some v → peek t b (off + BitVec.ofNat 16 k) = val (off + BitVec.ofNat 16 k) v
  elsewhere : ∀ c a, (c ≠ b ∨ ∀ k, k < data.length → cell a ≠ cell (off + BitVec.ofNat 16 k)) → peek t c a = peek s c a

/-- In every state with `I` the write of each byte of `data` stores it and keeps `I`. -/
def EachStores {α : Type} (I : State → Prop) (cell : Word16 → α) (b : Bsb) (val : Word16 → Byte → Option Byte)
    (off : Word16) (data : List Byte) : Prop :=
  ∀ k v u, data[k]? = some v → I u → I (memWrite b (off + BitVec.ofNat 16 k) v u) ∧
    StoresByte cell b (off + BitVec.ofNat 16 k) (val (off + BitVec.ofNat 16 k) v) u
      (memWrite b (off + BitVec.ofNat 16 k) v u)

/-- The offsets of `len` bytes from `off` on name different cells. -/
def CellsApart {α : Type} (cell : Word16 → α) (off : Word16) (len : Nat) : Prop :=
  ∀ j k, j < k → k < len → cell (off + BitVec.ofNat 16 j) ≠ cell (off + BitVec.ofNat 16 k)

theorem offset_zero (off : Word16) : off + BitVec.ofNat 16 0 = off := BitVec.add_zero off

section
variable {α : Type} {cell : Word16 → α} {b : Bsb} {val : Word16 → Byte → Option Byte} {I : State → Prop}

theorem StoresData.of_holds {off : Word16} {data : List Byte} {s t u : State} (held : Holds t u)
    (h : StoresData cell b val off data s u) : StoresData cell b val off data s t :=
  ⟨held.faults.trans h.faults, held.refusals.trans h.refusals, held.resetting.trans h.resetting, held.peek ▸ h.here,
    held.peek ▸ h.elsewhere⟩

theorem StoresData.nil (off : Word16) (s : State) : StoresData cell b val off [] s s :=
  ⟨rfl, rfl, rfl, nofun, fun _ _ _ => rfl⟩

/-- A byte stored, and then the bytes after it in other cells. -/
theorem StoresData.cons {off : Word16} {v : Byte} {rest : List Byte} {s t u : State}
    (first : StoresByte cell b off (val off v) s u) (others : StoresData cell b val (off + 1) rest u t)
    (apart : CellsApart cell off (rest.length + 1)) : StoresData cell b val off (v :: rest) s t := by
  refine ⟨others.faults.trans first.faults, others.refusals.trans first.refusals, others.resetting.trans first.resetting,
    fun k w byte => ?_, fun c a away => ?_⟩
  · cases k with
    | zero =>
      cases byte
      have kept := others.elsewhere b off (.inr fun k hk => by
        have := apart 0 (k + 1) k.succ_pos (Nat.succ_lt_succ hk)
        rwa [offset_zero, ← offset_succ] at this)
      rw [offset_zero, kept]
      exact first.here
    | succ k =>
      rw [← offset_succ]
      exact others.here k w byte
  · rw [others.elsewhere c a (away.imp_right fun away k hk => offset_succ off k ▸ away (k + 1) (Nat.succ_lt_succ hk))]
    exact first.elsewhere c a (away.imp_right fun away => offset_zero off ▸ away 0 (Nat.succ_pos _))

theorem EachStores.tail {off : Word16} {v : Byte} {rest : List Byte} (each : EachStores I cell b val off (v :: rest)) :
    EachStores I cell b val (off + 1) rest := by
  intro k w u byte inv
  rw [offset_succ]
  exact each (k + 1) w u byte inv

theorem CellsApart.tail {off : Word16} {len : Nat} (apart : CellsApart cell off (len + 1)) : CellsApart cell (off + 1) len := by
  intro j k before short
  rw [offset_succ, offset_succ]
  exact apart (j + 1) (k + 1) (Nat.succ_lt_succ before) (Nat.succ_lt_succ short)

/-- Writes that each store their byte, in different cells, store all of them. -/
theorem storeAll_stores {off : Word16} {data : List Byte} {s : State} (each : EachStores I cell b val off data)
    (apart : CellsApart cell off data.length) (start : I s) :
    I (storeAll b off data s) ∧ StoresData cell b val off data s (storeAll b off data s) := by
  induction data generalizing off s with
  | nil => exact ⟨start, .nil off s⟩
  | cons v rest ih =>
    obtain ⟨inv, first⟩ := each 0 v s rfl start
    rw [offset_zero] at inv first
    obtain ⟨inv', others⟩ := ih each.tail apart.tail inv
    exact ⟨inv', .cons first others apart⟩

/-- A write frame whose writes each store their byte, in different cells, stores all of them. -/
theorem writeFrame_stores {s : State} (ready : FrameReady s) (known : reservedBsb b = false) {off : Word16} {om : OpMode}
    {data : List Byte} (admits : om.admits data.length = true) (each : EachStores I cell b val off data)
    (apart : CellsApart cell off data.length) (start : I s) :
    Holds (runFrame (frameBytes b true off om data) s) (storeAll b off data s) ∧ I (storeAll b off data s) ∧
      StoresData cell b val off data s (runFrame (frameBytes b true off om data) s) := by
  have settled (k : Nat) : (storeAll b off (data.take k) s).sfp.resetting = false := by
    have eachTaken : EachStores I cell b val off (data.take k) := fun j v u byte =>
      each j v u (by
        rw [List.getElem?_take] at byte
        split at byte
        · exact byte
        · cases byte)
    have apartTaken : CellsApart cell off (data.take k).length := fun i j before short =>
      apart i j before (Nat.lt_of_lt_of_le short (List.length_take_le' k data))
    exact (storeAll_stores eachTaken apartTaken start).2.resetting.trans ready.settled
  have held := writeFrame_holds ready known (off := off) admits fun k _ => settled k
  obtain ⟨inv, stored⟩ := storeAll_stores each apart start
  exact ⟨held, inv, stored.of_holds held⟩

end

/-! ### Offsets of a frame (R136) -/

/-- Consecutive offsets of which none is the last of the address space count up from the first. -/
theorem toNat_offset {off : Word16} {len top : Nat} (below : top < 65535)
    (bounded : ∀ k, k < len → (off + BitVec.ofNat 16 k).toNat ≤ top) {k : Nat} (hk : k < len) :
    (off + BitVec.ofNat 16 k).toNat = off.toNat + k := by
  induction k with
  | zero => rw [offset_zero, Nat.add_zero]
  | succ k ih =>
    have before := ih (by omega)
    have limit := bounded k (by omega)
    have small := off.isLt
    simp only [BitVec.toNat_add, BitVec.toNat_ofNat] at before limit ⊢
    omega

theorem offsets_apart {off : Word16} {len top : Nat} (below : top < 65535)
    (bounded : ∀ k, k < len → (off + BitVec.ofNat 16 k).toNat ≤ top) : CellsApart id off len := by
  intro j k before short same
  have place := congrArg BitVec.toNat (show off + BitVec.ofNat 16 j = off + BitVec.ofNat 16 k from same)
  rw [toNat_offset below bounded (before.trans short), toNat_offset below bounded short] at place
  omega

/-- A byte of `data` at a place within it. -/
theorem getElem?_of_lt {data : List Byte} {k : Nat} (hk : k < data.length) : ∃ v, data[k]? = some v :=
  ⟨data[k], List.getElem?_eq_getElem hk⟩

theorem lt_of_getElem? {data : List Byte} {k : Nat} {v : Byte} (byte : data[k]? = some v) : k < data.length :=
  (List.getElem?_eq_some_iff.1 byte).1

/-! ### The identity registers (R140, R147) -/

/-- A write frame over identity registers stores its bytes, and leaves MR and the sockets. -/
theorem writeFrame_common {s : State} (ready : FrameReady s) {off : Word16} {om : OpMode} {data : List Byte}
    (admits : om.admits data.length = true)
    (identity : ∀ k, k < data.length → 1 ≤ (off + BitVec.ofNat 16 k).toNat ∧ (off + BitVec.ofNat 16 k).toNat ≤ 0x12) :
    StoresData id 0 (fun _ v => some v) off data s (runFrame (frameBytes 0 true off om data) s) ∧
      (runFrame (frameBytes 0 true off om data) s).sfp.regs.mr = s.sfp.regs.mr ∧
      (runFrame (frameBytes 0 true off om data) s).sfp.regs.socks = s.sfp.regs.socks := by
  have each : EachStores (fun u => u.sfp.regs.mr = s.sfp.regs.mr ∧ u.sfp.regs.socks = s.sfp.regs.socks) id 0
      (fun _ v => some v) off data := by
    rintro k v u byte ⟨mr, socks⟩
    obtain ⟨low, high⟩ := identity k (lt_of_getElem? byte)
    obtain ⟨stored, mr', socks'⟩ := memWrite_identity low high v u
    exact ⟨⟨mr'.trans mr, socks'.trans socks⟩, stored⟩
  have apart := offsets_apart (top := 0x12) (by decide) fun k hk => (identity k hk).2
  obtain ⟨held, ⟨mr, socks⟩, stored⟩ := writeFrame_stores ready reservedBsb_zero admits each apart ⟨rfl, rfl⟩
  rw [held.regs]
  exact ⟨stored, mr, socks⟩

/-- Settles O45: the frame's bytes are those of identity registers. -/
theorem commonWriteFrameStores : Obligations.CommonWriteFrameStores := by
  intro off om data s admits ready identity
  obtain ⟨stored, -, -⟩ := writeFrame_common ready admits identity
  refine ⟨_, rfl, runFrame_leaves _ ready, stored.faults, stored.refusals, stored.resetting.trans ready.settled,
    fun k hk => ?_, stored.elsewhere⟩
  obtain ⟨v, byte⟩ := getElem?_of_lt hk
  rw [byte]
  exact stored.here k v byte

/-! ### Read frames (R139, R141, R143, R145) -/

/-- Settles O44: each of the four blocks is read by `readFrame_returns`. -/
theorem readFramesReturnTheBytes : Obligations.ReadFramesReturnTheBytes := by
  intro n off om len s admits ready p hp fixed totals
  obtain ⟨regKnown, txKnown, rxKnown⟩ := known_bsbOf n
  simp only [List.mem_cons, List.not_mem_nil, or_false] at hp
  rcases hp with rfl | rfl | rfl | rfl
  · obtain ⟨header, vals, returned⟩ := readFrame_returns ready reservedBsb_zero admits fixed
      (fun buffer => absurd buffer (show ¬2 ≤ (bsbKind 0).toNat by decide))
    exact ⟨_, header, vals, rfl, returned⟩
  · obtain ⟨header, vals, returned⟩ := readFrame_returns ready regKnown admits fixed
      (fun buffer => absurd buffer (by rw [bsbKind_bsbOf]; decide))
    exact ⟨_, header, vals, rfl, returned⟩
  · obtain ⟨header, vals, returned⟩ := readFrame_returns ready txKnown admits fixed (fun _ => totals (.inl rfl))
    exact ⟨_, header, vals, rfl, returned⟩
  · obtain ⟨header, vals, returned⟩ := readFrame_returns ready rxKnown admits fixed (fun _ => totals (.inr rfl))
    exact ⟨_, header, vals, rfl, returned⟩

/-! ### The identity record (R43) -/

/-- GAR, SUBR, SHAR and SIPR in order. -/
def identityRecord (r : SfpRegs) : List Byte := r.gar.toList ++ r.subr.toList ++ r.shar.toList ++ r.sipr.toList

theorem toList_eq_ofFn {n : Nat} (xs : Vector Byte n) : xs.toList = List.ofFn xs.get := by
  refine List.ext_getElem (by simp) fun i h k => ?_
  simp [Vector.get_eq_getElem]

/-- The record is what the 18 offsets from 0x0001 on read. -/
theorem identityRecord_eq (s : State) :
    (identityRecord s.sfp.regs).map some = (List.range 18).map fun k => peek s 0 (0x0001 + BitVec.ofNat 16 k) := by
  rw [identityRecord, toList_eq_ofFn, toList_eq_ofFn, toList_eq_ofFn, toList_eq_ofFn]
  rfl

theorem identity_offset {k : Nat} (hk : k < 18) :
    1 ≤ ((0x0001 : Word16) + BitVec.ofNat 16 k).toNat ∧ ((0x0001 : Word16) + BitVec.ofNat 16 k).toNat ≤ 0x12 := by
  rw [BitVec.toNat_add, BitVec.toNat_ofNat, show (0x0001 : Word16).toNat = 1 from rfl]
  omega

/-- Settles O46: the write frame stores the record, the SFP is ready again, and the read frame returns it. -/
theorem identityRecordRoundTrip : Obligations.IdentityRecordRoundTrip := by
  intro data s len ready
  obtain ⟨stored, mr, socks⟩ := writeFrame_common ready (om := .vdm) (off := 0x0001) (data := data) rfl
    fun k hk => identity_offset (len ▸ hk)
  generalize written : runFrame (frameBytes 0 true 0x0001 .vdm data) s = t at stored mr socks
  have leaves : FrameLeaves s t := written ▸ runFrame_leaves _ ready
  have bytes : (List.range 18).map (fun k => peek t 0 (0x0001 + BitVec.ofNat 16 k)) = data.map some := by
    refine List.ext_getElem (by simp [len]) fun k h _ => ?_
    have hk : k < data.length := by simpa [len] using h
    simpa using stored.here k data[k] (List.getElem?_eq_getElem hk)
  have record : identityRecord t.sfp.regs = data :=
    List.map_injective_iff.2 (Option.some_injective _) ((identityRecord_eq t).trans bytes)
  have readyAgain := frameReady_after leaves ready (stored.resetting.trans ready.settled)
  obtain ⟨header, vals, responses, three, values, -, -, faults, refusals⟩ := readFrame_returns readyAgain reservedBsb_zero
    (off := 0x0001) (om := .vdm) (len := 18) rfl (fun k hk => by
      obtain ⟨v, byte⟩ := getElem?_of_lt (len ▸ hk : k < data.length)
      rw [stored.here k v byte]
      rfl) (fun buffer => absurd buffer (by decide))
  obtain rfl : vals = data := List.map_injective_iff.2 (Option.some_injective _) (values.trans bytes)
  exact ⟨t, _, header, congrArg _ written, record, mr, socks, rfl, three, responses, faults.trans stored.faults,
    refusals.trans stored.refusals⟩

end Sys2Proof.Proofs
end

section
/-!
PROOFS. Write frames over a socket's registers without side effects (R142, R148) and over a TX buffer (R144, R152).
-/

namespace Sys2Proof.Proofs

open Sys2Proof.Laws Sys2Proof.Machine Sys2Proof.Machine.Laws

/-- A socket update leaves what is read outside what it changes of the socket's registers, TX cells and RX cells. -/
theorem peek_onSock {s : State} {n : SockIx} {f : Socket → Socket} {c : Bsb} {a : Word16}
    (regs : c = bsbOf n 1 → (sockReg a).map (sockValue (f (s.sock n))) = (sockReg a).map (sockValue (s.sock n)))
    (tx : c = bsbOf n 2 → (f (s.sock n)).txsz = (s.sock n).txsz ∧
      (f (s.sock n)).txbuf.read (cellIndex a (s.sock n).txsz) = (s.sock n).txbuf.read (cellIndex a (s.sock n).txsz))
    (rx : (f (s.sock n)).rxsz = (s.sock n).rxsz ∧ (f (s.sock n)).rxbuf = (s.sock n).rxbuf) :
    peek (s.onSock n f) c a = peek s c a := by
  rcases bsb_cases c with rfl | ⟨kind, reserved⟩ | ⟨m, block⟩
  · rfl
  · rw [peek_reserved _ kind reserved, peek_reserved _ kind reserved]
  · by_cases same : m = n
    · subst same
      rcases block with rfl | rfl | rfl
      · rw [peek_sockReg, peek_sockReg, sock_onSock_same, regs rfl]
      · obtain ⟨size, cells⟩ := tx rfl
        rw [peek_txBuf, peek_txBuf, sock_onSock_same, size, cells]
      · rw [peek_rxBuf, peek_rxBuf, sock_onSock_same, rx.1, rx.2]
    · rcases block with rfl | rfl | rfl
      · rw [peek_sockReg, peek_sockReg, sock_onSock_other _ _ _ _ same]
      · rw [peek_txBuf, peek_txBuf, sock_onSock_other _ _ _ _ same]
      · rw [peek_rxBuf, peek_rxBuf, sock_onSock_other _ _ _ _ same]

/-! ### Sn_MR, Sn_SR and Sn_PORT (R148, R149) -/

/-- The offset of a socket register. -/
def sockOffset : SockReg → Nat
  | .mr => 0x00
  | .cr => 0x01
  | .sr => 0x03
  | .port0 => 0x04
  | .port1 => 0x05
  | .rxsz => 0x1E
  | .txsz => 0x1F

theorem toNat_of_sockReg {off : Word16} {r : SockReg} (named : sockReg off = some r) : off.toNat = sockOffset r := by
  unfold sockReg at named
  split at named
  case h_8 => cases named
  all_goals
    next place =>
    cases named
    exact place

/-- A socket update that puts `v` in register `r` and leaves the buffers stores a byte. -/
theorem storesByte_onSock {off : Word16} {r : SockReg} (named : sockReg off = some r) {v : Byte} {f : Socket → Socket}
    (put : ∀ k q, sockValue (f k) q = if q = r then v else sockValue k q)
    (buffers : ∀ k, ((f k).txsz = k.txsz ∧ (f k).txbuf = k.txbuf) ∧ (f k).rxsz = k.rxsz ∧ (f k).rxbuf = k.rxbuf)
    (n : SockIx) (s : State) : StoresByte id (bsbOf n 1) off (some v) s (s.onSock n f) := by
  refine ⟨rfl, rfl, rfl, ?_, fun c a away => ?_⟩
  · rw [peek_sockReg, sock_onSock_same, named, Option.map_some, put, if_pos rfl]
  · obtain ⟨⟨txsz, txbuf⟩, rx⟩ := buffers (s.sock n)
    refine peek_onSock (fun block => ?_) (fun _ => ⟨txsz, by rw [txbuf]⟩) rx
    cases place : sockReg a with
    | none => rfl
    | some q =>
      have apart : q ≠ r := by
        rintro rfl
        exact away.elim (absurd block) fun away =>
          away (BitVec.eq_of_toNat_eq ((toNat_of_sockReg place).trans (toNat_of_sockReg named).symm))
      rw [Option.map_some, Option.map_some, put, if_neg apart]

theorem sockWrite_stores {off : Word16} {r : SockReg} (named : sockReg off = some r)
    (plain : r = .mr ∨ r = .port0 ∨ r = .port1) (n : SockIx) (v : Byte) (s : State) :
    StoresByte id (bsbOf n 1) off (some v) s (sockWrite n r v s) := by
  rcases plain with rfl | rfl | rfl
  · exact storesByte_onSock (f := fun k => { k with mr := v }) named (fun _ q => by cases q <;> rfl)
      (fun _ => ⟨⟨rfl, rfl⟩, rfl, rfl⟩) n s
  · exact storesByte_onSock (f := fun k => { k with port0 := v }) named (fun _ q => by cases q <;> rfl)
      (fun _ => ⟨⟨rfl, rfl⟩, rfl, rfl⟩) n s
  · exact storesByte_onSock (f := fun k => { k with port1 := v }) named (fun _ q => by cases q <;> rfl)
      (fun _ => ⟨⟨rfl, rfl⟩, rfl, rfl⟩) n s

/-- What Sn_MR, Sn_PORT and Sn_SR read after a write: the byte, or, for Sn_SR, what they read in `s` (R148). -/
def socketWritten (s : State) (n : SockIx) (off : Word16) (v : Byte) : Option Byte :=
  if off = 0x0003 then peek s (bsbOf n 1) 0x0003 else some v

/-- A write of Sn_MR, Sn_SR or Sn_PORT stores its byte, or, for Sn_SR, nothing. -/
theorem memWrite_socket_stores {off : Word16} (plain : off ∈ [(0x0000 : Word16), 0x0003, 0x0004, 0x0005]) {n : SockIx}
    {s u : State} (status : peek u (bsbOf n 1) 0x0003 = peek s (bsbOf n 1) 0x0003) (v : Byte) :
    StoresByte id (bsbOf n 1) off (socketWritten s n off v) u (memWrite (bsbOf n 1) off v u) := by
  simp only [List.mem_cons, List.not_mem_nil, or_false] at plain
  rcases plain with rfl | rfl | rfl | rfl
  · rw [memWrite_sockReg (r := .mr) rfl]
    exact sockWrite_stores rfl (.inl rfl) n v u
  · rw [memWrite_sockReg (r := .sr) rfl]
    exact ⟨rfl, rfl, rfl, status, fun _ _ _ => rfl⟩
  · rw [memWrite_sockReg (r := .port0) rfl]
    exact sockWrite_stores rfl (.inr (.inl rfl)) n v u
  · rw [memWrite_sockReg (r := .port1) rfl]
    exact sockWrite_stores rfl (.inr (.inr rfl)) n v u

/-- Such a write leaves what Sn_SR reads. -/
theorem StoresByte.keeps_status {n : SockIx} {off : Word16} {v : Byte} {s u t : State}
    (stored : StoresByte id (bsbOf n 1) off (socketWritten s n off v) u t)
    (status : peek u (bsbOf n 1) 0x0003 = peek s (bsbOf n 1) 0x0003) :
    peek t (bsbOf n 1) 0x0003 = peek s (bsbOf n 1) 0x0003 := by
  by_cases sr : off = 0x0003
  · subst sr
    exact stored.here.trans (if_pos rfl)
  · exact (stored.elsewhere _ _ (.inr (Ne.symm sr))).trans status

theorem plain_le {off : Word16} (plain : off ∈ [(0x0000 : Word16), 0x0003, 0x0004, 0x0005]) : off.toNat ≤ 5 := by
  simp only [List.mem_cons, List.not_mem_nil, or_false] at plain
  rcases plain with rfl | rfl | rfl | rfl <;> decide

/-- Settles O48: each of the four offsets stores its byte or, at Sn_SR, none. -/
theorem socketRegisterWriteFrame : Obligations.SocketRegisterWriteFrame := by
  intro n off om data s admits ready plain
  have each : EachStores (fun u => peek u (bsbOf n 1) 0x0003 = peek s (bsbOf n 1) 0x0003) id (bsbOf n 1)
      (socketWritten s n) off data := fun k v u byte status =>
    have stored := memWrite_socket_stores (plain k (lt_of_getElem? byte)) status v
    ⟨stored.keeps_status status, stored⟩
  have apart := offsets_apart (top := 5) (by decide) fun k hk => plain_le (plain k hk)
  obtain ⟨-, -, stored⟩ := writeFrame_stores ready (known_bsbOf n).1 admits each apart rfl
  refine ⟨_, rfl, runFrame_leaves _ ready, stored.faults, stored.refusals, stored.resetting.trans ready.settled,
    fun k hk => ?_, stored.elsewhere⟩
  obtain ⟨v, byte⟩ := getElem?_of_lt hk
  rw [byte]
  exact stored.here k v byte

/-! ### TX buffers (R144, R151, R152) -/

/-- An update of a socket that leaves a field leaves the sum of the field over the sockets. -/
theorem sum_onSock {g : Socket → Nat} {s : State} {n : SockIx} {f : Socket → Socket}
    (same : g (f (s.sock n)) = g (s.sock n)) : ((s.onSock n f).sfp.regs.socks.toList.map g).sum = (s.sfp.regs.socks.toList.map g).sum := by
  have put : (s.onSock n f).sfp.regs.socks.toList.map g =
      (s.sfp.regs.socks.toList.map g).set n (g (s.sock n)) := by
    rw [sfp_onSock, ← same]
    simp [Vector.toList_set, List.map_set]
  have there : (s.sfp.regs.socks.toList.map g)[n.val]'(by simp) = g (s.sock n) := by
    simp [State.sock, Vector.get_eq_getElem]
  rw [put, ← there, List.set_getElem_self]

/-- A store of a cell leaves the totals. -/
theorem totalsOk_txCell {s : State} (totals : TotalsOk s) (n : SockIx) (i : Nat) (v : Byte) :
    TotalsOk (s.onSock n fun k => { k with txbuf := k.txbuf.write i v }) :=
  ⟨(sum_onSock (g := fun k => k.rxsz.toNat) rfl).trans_le totals.rx,
    (sum_onSock (g := fun k => k.txsz.toNat) rfl).trans_le totals.tx⟩

/-- A write into a TX buffer, the totals not exceeded, stores its byte in the cell of its offset. -/
theorem txBufWrite_stores {n : SockIx} {s : State} (totals : TotalsOk s) (size : (s.sock n).txsz ≠ 0) (off : Word16)
    (v : Byte) :
    (TotalsOk (memWrite (bsbOf n 2) off v s) ∧ ((memWrite (bsbOf n 2) off v s).sock n).txsz = (s.sock n).txsz) ∧
    StoresByte (cellIndex · (s.sock n).txsz) (bsbOf n 2) off (some v) s (memWrite (bsbOf n 2) off v s) := by
  have written : memWrite (bsbOf n 2) off v s =
      s.onSock n fun k => { k with txbuf := k.txbuf.write (cellIndex off (s.sock n).txsz) v } := by
    rw [memWrite_txBuf, (txBufWrite_cases n off v s).2 size, checkTotal_ok totals]
    exact onSock_congr rfl
  rw [written]
  refine ⟨⟨totalsOk_txCell totals n _ v, by rw [sock_onSock_same]⟩, rfl, rfl, rfl, ?_, fun c a away => ?_⟩
  · rw [peek_txBuf, sock_onSock_same, if_neg size, memory_read_write_same]
  · refine peek_onSock (fun _ => ?_) (fun block => ⟨rfl, ?_⟩) ⟨rfl, rfl⟩
    · exact congrArg ((sockReg a).map ·) (funext fun q => by cases q <;> rfl)
    · exact memory_read_write_other _ _ _ _ (away.resolve_left (not_not.2 block))

/-- The number of cells of a buffer divides the address space. -/
theorem cellsOf_dvd {sz : Byte} (legal : legalSize sz = true) (size : sz ≠ 0) : cellsOf sz ∣ 65536 := by
  have zero : sz.toNat ≠ 0 := fun h => size (BitVec.eq_of_toNat_eq h)
  have sizes := (legalSize_iff sz).1 legal
  simp only [List.mem_cons, List.not_mem_nil, or_false, zero, false_or] at sizes
  rw [cellsOf]
  rcases sizes with h | h | h | h | h <;> rw [h] <;> decide

/-- No more offsets than a buffer has cells name different cells. -/
theorem cells_apart {sz : Byte} (legal : legalSize sz = true) (size : sz ≠ 0) {off : Word16} {len : Nat}
    (fits : len ≤ cellsOf sz) : CellsApart (cellIndex · sz) off len := by
  have cell (k : Nat) : cellIndex (off + BitVec.ofNat 16 k) sz = (off.toNat + k) % cellsOf sz := by
    rw [cellIndex, BitVec.toNat_add, BitVec.toNat_ofNat, Nat.add_mod_mod]
    exact Nat.mod_mod_of_dvd _ (cellsOf_dvd legal size)
  intro j k before short same
  simp only [cell] at same
  have multiple : cellsOf sz ∣ k - j := by
    have := (Nat.modEq_iff_dvd' (by omega : off.toNat + j ≤ off.toNat + k)).1 same
    rwa [Nat.add_sub_add_left] at this
  have := Nat.le_of_dvd (by omega) multiple
  omega

/-- Settles O51: each byte is stored in the cell of its offset, and no two of them in one. -/
theorem txBufferWriteFrameStores : Obligations.TxBufferWriteFrameStores := by
  intro n off om data s admits ready totals legal size fits
  have each : EachStores (fun u => TotalsOk u ∧ (u.sock n).txsz = (s.sock n).txsz) (cellIndex · (s.sock n).txsz)
      (bsbOf n 2) (fun _ v => some v) off data := by
    rintro k v u - ⟨totals, same⟩
    rw [← same]
    exact txBufWrite_stores totals (same ▸ size) _ v
  obtain ⟨-, -, stored⟩ := writeFrame_stores ready (known_bsbOf n).2.1 admits each (cells_apart legal size fits)
    ⟨totals, rfl⟩
  refine ⟨_, rfl, runFrame_leaves _ ready, stored.faults, stored.refusals, stored.resetting.trans ready.settled,
    fun k hk => ?_, stored.elsewhere⟩
  obtain ⟨v, byte⟩ := getElem?_of_lt hk
  rw [byte]
  exact stored.here k v byte

end Sys2Proof.Proofs
end

section
/-!
PROOFS. What stands in the place of exceptions: every step answers a next state and loses no record (R13, R37, R171),
with the parameters and capacities it began with (R6, R80); and the interrupt outputs are levels (R175, R176).
-/

namespace Sys2Proof.Proofs

open Sys2Proof.Machine Sys2Proof.Machine.Laws

/-! ### Parameters and capacities (R6, R80) -/

/-- The parameters, and the capacity of each ring. -/
def parameters (s : State) : Config × (RingId → Nat) := (s.cfg, fun q => (s.ring q).cap)

theorem RingOp.cap_eq {r r' : Ring} (op : RingOp r r') : r'.cap = r.cap := by
  cases op with
  | push v => exact push_cap r v
  | pop => exact pop_cap r
  | clear => exact clear_cap r

/-- A ring of the same capacity, put in place, changes no parameter. -/
theorem parameters_setRing {s : State} {q : RingId} {r : Ring} (same : r.cap = (s.ring q).cap) :
    parameters (s.setRing q r) = parameters s := by
  refine Prod.ext (setRing_cfg s q r) (funext fun p => ?_)
  by_cases this_ring : p = q
  · subst this_ring
    exact (congrArg Ring.cap (ring_setRing_same s p r)).trans same
  · exact congrArg Ring.cap (ring_setRing_other s p q r this_ring)

theorem Effect.parameters_eq {s t : State} (e : Effect s t) : parameters t = parameters s := by
  cases e with
  | aside same => rw [same]; rfl
  | ring q op => exact parameters_setRing op.cap_eq
  | uart _ => rfl
  | spi _ => rfl
  | sfp _ => rfl

theorem step_parameters {s t : State} (stepped : step s = .next t) : parameters t = parameters s :=
  step_keeps (P := fun u => parameters u = parameters s) (fun _ _ e same => e.parameters_eq.trans same) rfl stepped

/-! ### The records (R37) -/

/-- The fault record and the refusal record. -/
def records (s : State) : List Fault × List Refusal := (s.faults, s.refusals)

/-- From `s` to `t` nothing has left a record. -/
structure RecordsGrow (s t : State) : Prop where
  faults : s.faults ⊆ t.faults
  refusals : s.refusals ⊆ t.refusals

theorem RecordsGrow.of_same {s t : State} (same : records t = records s) : RecordsGrow s t := by
  obtain ⟨faults, refusals⟩ := Prod.mk.inj same
  exact ⟨faults ▸ List.Subset.refl _, refusals ▸ List.Subset.refl _⟩

theorem RecordsGrow.trans {s t u : State} (h : RecordsGrow s t) (k : RecordsGrow t u) : RecordsGrow s u :=
  ⟨List.Subset.trans h.faults k.faults, List.Subset.trans h.refusals k.refusals⟩

theorem RecordsGrow.of_sfpOnly {s t : State} (h : SfpOnly s t) : RecordsGrow s t := by
  obtain ⟨-, faults, refusals⟩ := h
  exact ⟨faults, refusals⟩

theorem RecordsGrow.refuse (r : Refusal) (s : State) : RecordsGrow s (refuse r s) := .of_sfpOnly (.refuse r s)

/-! ### What leaves the records alone: the rings, the UART, the SPI master but for its slave role -/

theorem records_setRing (s : State) (q : RingId) (r : Ring) : records (s.setRing q r) = records s :=
  Prod.ext (setRing_faults s q r) (setRing_refusals s q r)

theorem readData_records (q : RingId) {uf : State → State} {s : State} (flag : records (uf s) = records s) :
    records (readData q uf s) = records s := by
  rcases readData_cases q uf s with ⟨_, e⟩ | ⟨_, e⟩ <;> rw [e]
  · exact flag
  · exact records_setRing s q _

theorem writeData_records (q : RingId) {ovf : State → State} (v : Byte) {s : State}
    (flag : records (ovf s) = records s) : records (writeData q ovf v s) = records s := by
  rcases writeData_cases q ovf v s with ⟨_, e⟩ | ⟨_, e⟩ <;> rw [e]
  · exact flag
  · exact records_setRing s q _

theorem uartCtrlWrite_records (v : Byte) (s : State) : records (uartCtrlWrite v s) = records s := by
  rw [uartCtrlWrite, uartCtrlConfig_eq]
  split
  · rfl
  · split <;> rfl

theorem uartFrameWrite_records (v : Byte) (s : State) : records (uartFrameWrite v s) = records s := by
  unfold uartFrameWrite
  split
  · split <;> rfl
  · split <;> rfl

theorem uartBaudWrite_records (v : Byte) (s : State) : records (uartBaudWrite v s) = records s := by
  unfold uartBaudWrite
  simp only
  split
  · split <;> rfl
  · split
    · split <;> rfl
    · rfl

theorem uartCmdWrite_records (v : Byte) (s : State) : records (uartCmdWrite v s) = records s := by
  rw [uartCmdWrite_eq]
  rfl

theorem receive_records (f : RxFrame) (s : State) : records (receive f s) = records s := by
  unfold receive
  split <;> rfl

theorem lineFrame_records (f : RxFrame) (s : State) : records (lineFrame f s) = records s := by
  unfold lineFrame
  split
  · rfl
  · exact receive_records f s

theorem utxStart_records (s : State) : records (utxStart s) = records s := by
  rw [utxStart_eq]
  split <;> rfl

theorem utxFinish_records (s : State) : records (utxFinish s) = records s := by
  unfold utxFinish
  split
  · rfl
  · simp only
    split
    · exact receive_records _ (emit _ s)
    · rfl

theorem spiLoad_records (v : Byte) (s : State) : records (spiLoad v s) = records s := by
  rcases spiLoad_cases v s with ⟨_, e⟩ | ⟨_, e⟩ <;> rw [e] <;> rfl

theorem spiDataWrite_records (v : Byte) (s : State) : records (spiDataWrite v s) = records s := by
  unfold spiDataWrite
  split
  · exact writeData_records .stx v rfl
  · split
    · exact spiLoad_records v s
    · rfl

theorem spiClkselWrite_records (v : Byte) (s : State) : records (spiClkselWrite v s) = records s := by
  unfold spiClkselWrite
  simp only
  split
  · rfl
  · split
    · rfl
    · split <;> rfl

theorem spiSsWrite_records (v : Byte) (s : State) : records (spiSsWrite v s) = records s := by
  unfold spiSsWrite
  split
  · rfl
  · split
    · rfl
    · split <;> rfl

theorem spiCmdWrite_records (v : Byte) (s : State) : records (spiCmdWrite v s) = records s := by
  rw [spiCmdWrite_eq]
  simp only
  split
  · rw [spiGo_eq]
    rfl
  · rfl

theorem spiDrain_records (s : State) : records (spiDrain s) = records s := by
  rw [spiDrain_eq]
  split
  · split <;> rfl
  · rfl

/-! ### What may record -/

/-- A write of SPI_CTRL may refuse the slave role (R111). -/
theorem spiCtrlWrite_recordsGrow (v : Byte) (s : State) : RecordsGrow s (spiCtrlWrite v s) := by
  have written : RecordsGrow s (s.onSpi (afterCtrlWrite v)) := .of_same rfl
  rw [spiCtrlWrite_eq]
  split
  · exact written.trans (.refuse _ _)
  · exact written

/-- A completed byte records what the SFP's slot records (R129). -/
theorem spiComplete_recordsGrow (s : State) : RecordsGrow s (spiComplete s) := by
  unfold spiComplete
  split
  · exact .of_same rfl
  · next b _ => exact (RecordsGrow.of_sfpOnly (sfpOnly_spiExchange b s)).trans (.of_same rfl)

/-- A frame records what its slots record (R133). -/
theorem runFrame_recordsGrow (bytes : List Byte) (s : State) : RecordsGrow s (runFrame bytes s) := by
  have slots : RecordsGrow s (slots bytes (assertLine s)).2 :=
    .of_sfpOnly ((SfpOnly.onSfp s _).trans (sfpOnly_slots bytes _))
  exact slots.trans (.of_same rfl)

/-! ### The meanings, the moves and the step -/

/-- A next state is answered, and nothing has left a record in it. -/
def KeepsRecords (r : Result) (s : State) : Prop := ∃ t, r = .next t ∧ RecordsGrow s t

theorem KeepsRecords.next {s t : State} (h : RecordsGrow s t) : KeepsRecords (.next t) s := ⟨t, rfl, h⟩

theorem KeepsRecords.same {s t : State} (h : records t = records s) : KeepsRecords (.next t) s := .next (.of_same h)

/-- An answer from a state with the same records. -/
theorem KeepsRecords.from_same {r : Result} {s s' : State} (h : KeepsRecords r s') (same : records s' = records s) :
    KeepsRecords r s := by
  obtain ⟨t, answer, grown⟩ := h
  exact ⟨t, answer, (RecordsGrow.of_same same).trans grown⟩

/-- A command taken records a refusal at most (R155). -/
theorem KeepsRecords.command (n : SockIx) (f : SockStatus → Option SockStatus) (s : State) :
    KeepsRecords (.next (takeCommand n f s)) s := .next (.of_sfpOnly (sfpOnly_takeCommand n f s))

theorem execPinDelaySettle_keepsRecords (s : State) : KeepsRecords (execPinDelaySettle s) s := by
  unfold execPinDelaySettle
  split <;> exact .same rfl

theorem exec_keepsRecords (i : Instr) (s : State) : KeepsRecords (exec i s) s := by
  cases i with
  | rdUartData => exact .same (readData_records .urx rfl)
  | wrUartData v => exact .same (writeData_records .utx v rfl)
  | wrUartCtrl v => exact .same (uartCtrlWrite_records v s)
  | wrUartFrame v => exact .same (uartFrameWrite_records v s)
  | wrUartBaud v => exact .same (uartBaudWrite_records v s)
  | wrUartCmd v => exact .same (uartCmdWrite_records v s)
  | rdSpiData => exact .same (readData_records .srx rfl)
  | wrSpiData v => exact .same (spiDataWrite_records v s)
  | wrSpiCtrl v => exact .next (spiCtrlWrite_recordsGrow v s)
  | wrSpiClksel v => exact .same (spiClkselWrite_records v s)
  | wrSpiSs v => exact .same (spiSsWrite_records v s)
  | wrSpiCmd v => exact .same (spiCmdWrite_records v s)
  | rdUartStatus | rdUartCtrl | rdUartFrame | rdUartBaud | rdUartDivl | rdUartDivh | rdUartRxcnt | rdUartTxcnt | rdUartErr
  | rdUartCmd | rdSpiStatus | rdSpiCtrl | rdSpiClksel | rdSpiSs | rdSpiRxcnt | rdSpiTxcnt | rdSpiCmd | rdReserved _
  | wrUartStatus _ | wrUartErr _ | wrUartDivl _ | wrUartDivh _ | wrUartRxcnt _ | wrUartTxcnt _ | wrSpiStatus _
  | wrSpiRxcnt _ | wrSpiTxcnt _ | wrReserved _ _ | pinSfpHardReset | rbCount _ | cmdNone _ => exact .same rfl
  | pinDelaySettle => exact execPinDelaySettle_keepsRecords s
  | pinReserved _ | cmdReserved _ _ => exact .next (.refuse _ s)
  | rbPush q _ | rbPop q | rbClear q => exact .same (records_setRing s q _)
  | frameCommonRead _ _ _ | frameCommonWrite _ _ _ | frameReservedBsb4 _ _ _ _ | frameReservedBsb8 _ _ _ _
  | frameReservedBsb12 _ _ _ _ | frameReservedBsb16 _ _ _ _ | frameReservedBsb20 _ _ _ _ | frameReservedBsb24 _ _ _ _
  | frameReservedBsb28 _ _ _ _ | frameSockRegRead _ _ _ _ | frameSockRegWrite _ _ _ _ | frameTxBufRead _ _ _ _
  | frameTxBufWrite _ _ _ _ | frameRxBufRead _ _ _ _ | frameRxBufWrite _ _ _ _ =>
    exact .next (runFrame_recordsGrow _ s)
  | cmdDiscon n => exact .from_same (.command n _ (drawChoice s).2) rfl
  | cmdOpen n | cmdListen n | cmdConnect n | cmdClose n | cmdSend n | cmdSendMac n | cmdSendKeep n
  | cmdRecv n => exact .command n _ s

theorem runAccess_keepsRecords (a : HostAccess) (s : State) : KeepsRecords (runAccess a s) s := by
  unfold runAccess
  split
  · exact .next (.refuse _ s)
  · exact exec_keepsRecords _ s

theorem runHost_keepsRecords (s : State) : KeepsRecords (runHost s) s := by
  unfold runHost
  split
  · exact .same rfl
  · next a rest _ => exact .from_same (runAccess_keepsRecords a { s with hostq := rest }) rfl

theorem runPort_keepsRecords (a : Agent) (p : Port) (q : RingId) (op : BitVec 10) (s : State) :
    KeepsRecords (runPort a p q op s) s := by
  rcases runPort_cases a p q op s with ⟨_, _, e⟩ | ⟨_, e⟩ <;> rw [e]
  · exact exec_keepsRecords _ s
  · exact .same rfl

theorem runFrameBytes_keepsRecords (bytes : List Byte) (s : State) : KeepsRecords (runFrameBytes bytes s) s := by
  unfold runFrameBytes
  split
  · exact exec_keepsRecords _ s
  · exact .next (runFrame_recordsGrow bytes s)

theorem runTake_keepsRecords (n : SockIx) (s : State) : KeepsRecords (runTake n s) s := by
  obtain ⟨t, answer, reached⟩ := sfpOnly_runTake n s
  exact ⟨t, answer, .of_sfpOnly reached⟩

theorem runMove_keepsRecords (m : Move) (s : State) : KeepsRecords (runMove m s) s := by
  cases m with
  | host => exact runHost_keepsRecords s
  | ring a p q op => exact runPort_keepsRecords a p q op s
  | frame bytes => exact runFrameBytes_keepsRecords bytes s
  | utxStart => exact .same (utxStart_records s)
  | utxFinish => exact .same (utxFinish_records s)
  | line d p s1 s2 => exact .same (lineFrame_records _ s)
  | spiDrain => exact .same (spiDrain_records s)
  | spiComplete => exact .next (spiComplete_recordsGrow s)
  | sfpSettle => exact .next (.of_sfpOnly (sfpOnly_sfpSettle s))
  | netTake n => exact runTake_keepsRecords n s
  | netStatus n sr => exact .next (.of_sfpOnly (sfpOnly_netStatus n sr s))
  | netRx n i v => exact .next (.of_sfpOnly (sfpOnly_netRx n i v s))
  | blockReset => exact .same rfl

/-- The SFP's look at its line, which ends the step, records nothing (R131). -/
theorem step_keepsRecords (s : State) : KeepsRecords (step s) s := by
  cases sched : s.sched with
  | nil => rw [step_idle sched]; exact .same rfl
  | cons m rest =>
    obtain ⟨t, moved, grown⟩ := runMove_keepsRecords m { s with sched := rest }
    rw [step_move sched, moved]
    exact .next ⟨grown.faults, grown.refusals⟩

/-- Settles O6: the records by the move (`step_keepsRecords`), the parameters by the small updates (`step_parameters`). -/
theorem stepAnswersAndKeepsTheRecords : Obligations.StepAnswersAndKeepsTheRecords := by
  intro s
  obtain ⟨t, stepped, grown⟩ := step_keepsRecords s
  obtain ⟨cfg, caps⟩ := Prod.mk.inj (step_parameters stepped)
  exact ⟨t, stepped, grown.faults, grown.refusals, cfg, congrFun caps⟩

/-! ### Interrupt outputs (R175, R176) -/

theorem irqUart_iff (s : State) :
    irqUart s = true ↔ (s.uart.ctrl.rxie = true ∧ s.urx.count ≠ 0) ∨
      (s.uart.ctrl.txie = true ∧ s.uart.ctrl.txmode = false ∧ s.uart.flags.txdone = true) ∨
      (s.uart.ctrl.txie = true ∧ s.uart.ctrl.txmode = true ∧ s.uart.flags.txc = true) := by
  cases mode : s.uart.ctrl.txmode <;> simp [irqUart, mode]

theorem irqSpi_iff (s : State) : irqSpi s = true ↔ s.spi.ctrl.spie = true ∧ s.spi.flags.tc = true := by
  rw [irqSpi, Bool.and_eq_true]

/-- Both transmit terms look at a flag, so with both flags clear the receive term is left. -/
theorem irqUart_of_flags_clear {s : State} (txdone : s.uart.flags.txdone = false) (txc : s.uart.flags.txc = false) :
    irqUart s = true ↔ s.uart.ctrl.rxie = true ∧ s.urx.count ≠ 0 := by
  rw [irqUart_iff, txdone, txc]
  simp

theorem irqSpi_of_flag_clear {s : State} (tc : s.spi.flags.tc = false) : irqSpi s = false := by
  rw [irqSpi, tc, Bool.and_false]

/-- A flag written with 1 is clear. -/
theorem w1c_one (flag : Bool) {b : Bool} (one : b = true) : w1c flag b = false := by
  rw [w1c, one, Bool.not_true, Bool.and_false]

/-- Settles O33: the levels, and what is left of them once the flags are written with 1. -/
theorem interruptsAreLevels : Obligations.InterruptsAreLevels := by
  intro v s
  refine ⟨irqUart_iff s, irqSpi_iff s, fun bit2 bit3 => ⟨_, _, rfl, rfl, ?uart, ?spi⟩⟩
  case uart => exact irqUart_of_flags_clear (w1c_one _ bit2) (w1c_one _ bit3)
  case spi => exact irqSpi_of_flag_clear (w1c_one _ bit2)

end Sys2Proof.Proofs
end

section
/-!
PROOFS. The block reset (R187): what it leaves, and the values HOST reads right after it (R188).
-/

namespace Sys2Proof.Proofs

open Sys2Proof.Machine Sys2Proof.Machine.Laws

/-! ### What a block reset leaves (R187) -/

@[simp] theorem blockReset_sfp (s : State) : (blockReset s).sfp = s.sfp := rfl

/-- Every ring is cleared, its storage kept. -/
theorem blockReset_ring (s : State) (q : RingId) : (blockReset s).ring q = (s.ring q).clear := by
  cases q <;> rfl

/-- With SPE = 0 no line is asserted (R33). -/
theorem cs_of_disabled {s : State} (off : s.spi.ctrl.spe = false) (i : Nat) : cs s i = false := by
  simp [cs, off]

theorem cs_blockReset (s : State) (i : Nat) : cs (blockReset s) i = false := cs_of_disabled rfl i

/-- The falling edge of its line ends the SFP's open frame (R131). -/
theorem edge_falling {x : Sfp} (asserted : x.csPrev = true) : (x.edge false).phase = .idle := by
  simp [edge_eq, asserted]

theorem step_blockReset {s : State} {rest : List Move} (sched : s.sched = .blockReset :: rest) :
    step s = .next (endStep (blockReset { s with sched := rest })) := step_move sched

/-- What is left of the SFP is one look at a released line. -/
theorem endStep_blockReset_sfp (s : State) : (endStep (blockReset s)).sfp = s.sfp.edge false := by
  rw [Laws.endStep_sfp, cs_blockReset, blockReset_sfp]

/-- Settles O14: the reset touches the MCU side alone, and the look at the line that ends the step finds it released. -/
theorem blockResetKeepsTheSfp : Obligations.BlockResetKeepsTheSfp := by
  intro s rest sched
  have sfp := endStep_blockReset_sfp { s with sched := rest }
  refine ⟨_, step_blockReset sched, ?regs, ?resetting, rfl, rfl, rfl, cs_of_disabled rfl, ?frame, rfl, rfl, rfl, ?rings⟩
  case regs => rw [sfp, edge_regs]
  case resetting => rw [sfp, edge_resetting]
  case frame => exact fun asserted => by rw [sfp]; exact edge_falling asserted
  case rings =>
    intro q
    have cleared : (endStep (blockReset { s with sched := rest })).ring q = (s.ring q).clear :=
      blockReset_ring { s with sched := rest } q
    rw [cleared]
    exact ⟨rfl, rfl, rfl⟩

/-! ### The registers right after a block reset (R188) -/

/-- No flag, error or enable: every register made of single bits reads 0x00. -/
theorem packBits_zeros : packBits false false false false false false false false = 0x00 := by decide

theorem uartStatusByte_blockReset (s : State) : uartStatusByte (blockReset s) = 0x00 := packBits_zeros
theorem uartCtrlByte_reset (c : Config) : uartCtrlByte (uartReset c).ctrl = 0x00 := packBits_zeros
theorem uartErrByte_reset (c : Config) : uartErrByte (uartReset c).err = 0x00 := packBits_zeros
theorem spiStatusByte_blockReset (s : State) : spiStatusByte (blockReset s) = 0x00 := packBits_zeros
theorem spiCtrlByte_reset : spiCtrlByte spiReset.ctrl = 0x00 := packBits_zeros

/-- Eight data bits, one stop bit, no parity. -/
theorem frameByte_reset (c : Config) : (fmtBits (uartReset c).frame).setWidth 8 = (0x03 : Byte) :=
  (by decide : (fmtBits ⟨3, false, .absent⟩).setWidth 8 = (0x03 : Byte))

theorem spiSsByte_reset : spiSsByte spiReset.hold spiReset.ssidx = 0x00 := by decide

/-- The register holds the divisor of 9600 baud at U2X = 0, which is not negative from F_CLK = 153600 on (R6, R81). -/
theorem uartReset_div {c : Config} (clk : 153600 ≤ c.fClk) :
    (uartReset c).div = BitVec.ofNat 16 (c.fClk / 153600 - 1) := by
  have quotient : ((c.fClk / 153600 : Nat) : Int) - 1 = ((c.fClk / 153600 - 1 : Nat) : Int) := by omega
  calc (uartReset c).div = BitVec.ofInt 16 (((c.fClk / 153600 : Nat) : Int) - 1) := rfl
    _ = BitVec.ofNat 16 (c.fClk / 153600 - 1) := by rw [quotient, BitVec.ofInt_natCast]

/-- The two bytes of a number held in 16 bits (R94, R95). -/
theorem extractLsb'_ofNat16 (n : Nat) :
    (BitVec.ofNat 16 n).extractLsb' 0 8 = BitVec.ofNat 8 n ∧
    (BitVec.ofNat 16 n).extractLsb' 8 8 = BitVec.ofNat 8 (n / 256) := by
  refine ⟨BitVec.eq_of_toNat_eq ?low, BitVec.eq_of_toNat_eq ?high⟩ <;>
    simp only [BitVec.extractLsb'_toNat, BitVec.toNat_ofNat, Nat.shiftRight_eq_div_pow]
  case low => omega
  case high => omega

theorem divBytes_reset {c : Config} (clk : 153600 ≤ c.fClk) :
    (uartReset c).div.extractLsb' 0 8 = BitVec.ofNat 8 (c.fClk / 153600 - 1) ∧
    (uartReset c).div.extractLsb' 8 8 = BitVec.ofNat 8 ((c.fClk / 153600 - 1) / 256) := by
  rw [uartReset_div clk]
  exact extractLsb'_ofNat16 _

/-- The instruction is a register read that returns `v` and changes nothing (R58). -/
def Reads (s : State) (row : Instr × Byte) : Prop := exec row.1 s = .next (hostRead row.2 s)

/-- A register whose meaning is the read of the byte `b` reads `b`'s value. -/
theorem Reads.of_byte {s : State} {i : Instr} {b v : Byte} (meaning : exec i s = .next (hostRead b s)) (value : b = v) :
    Reads s (i, v) := value ▸ meaning

/-- A table of reads, row by row. -/
theorem Reads.of_mem {s : State} {rows : List (Instr × Byte)} (table : rows.Forall (Reads s)) (i : Instr) (v : Byte)
    (row : (i, v) ∈ rows) : exec i s = .next { s with responses := s.responses ++ [.hostRead v] } :=
  List.forall_iff_forall_mem.1 table (i, v) row

/-- A read of DATA finds its ring empty: 0x00, and RXUF by `uf` (R85, R114). -/
theorem readData_blockReset (q : RingId) (uf : State → State) (s : State) :
    readData q uf (blockReset s) = hostRead 0 (uf (blockReset s)) := by
  have empty : ((blockReset s).ring q).count = 0 := by rw [blockReset_ring]; rfl
  rw [readData_eq, if_pos empty]

theorem irqUart_of_masked {s : State} (rxie : s.uart.ctrl.rxie = false) (txie : s.uart.ctrl.txie = false) :
    irqUart s = false := by
  simp [irqUart, rxie, txie]

/-- Settles O13: each register by the value of its byte, the divisor's two by arithmetic; each DATA finds its ring cleared,
and no interrupt is enabled or flagged. -/
theorem registersAfterBlockReset : Obligations.RegistersAfterBlockReset := by
  intro s clk
  obtain ⟨divl, divh⟩ := divBytes_reset clk
  refine ⟨Reads.of_mem (s := blockReset s) ?reads, fun _ => rfl, ?uartData, ?spiData,
    irqUart_of_masked rfl rfl, irqSpi_of_flag_clear rfl⟩
  case reads =>
    exact ⟨.of_byte rfl (uartStatusByte_blockReset s), .of_byte rfl (uartCtrlByte_reset s.cfg),
      .of_byte rfl (frameByte_reset s.cfg), rfl, .of_byte rfl divl, .of_byte rfl divh, rfl, rfl,
      .of_byte rfl (uartErrByte_reset s.cfg), rfl, .of_byte rfl (spiStatusByte_blockReset s),
      .of_byte rfl spiCtrlByte_reset, rfl, .of_byte rfl spiSsByte_reset, rfl, rfl, rfl⟩
  case uartData =>
    exact ⟨_, congrArg Host.Outcome.next (readData_blockReset .urx setUartRxuf s), rfl, rfl⟩
  case spiData =>
    exact ⟨_, congrArg Host.Outcome.next (readData_blockReset .srx setSpiRxuf s), rfl, rfl⟩

end Sys2Proof.Proofs
end
